-- ==== Sys2Proof/Word.lean ====
section
/-! DEFINITION. The bit-vector types the spec names: bits32, bits16, bits8, window offsets and selector words (00_scope.md R9). -/

namespace Sys2Proof

/-- `bits32`: a register value, a written word, a read result (R7, R9). -/
abbrev Word := BitVec 32

/-- `bits16`: one logical transfer value, and the receive register (R7, R9). -/
abbrev Half := BitVec 16

/-- `bits8`: one byte of a wire exchange (R7, R9). -/
abbrev Byte := BitVec 8

/-- A byte offset inside an instance's 4096-byte window (R50). -/
abbrev Offset := BitVec 12

/-- A 14-bit selector word, `kind ++ off` (R71). -/
abbrev Selector := BitVec 14

end Sys2Proof
end

