-- ==== Sys2Proof/Config.lean ====
section
/-! DEFINITION. What an implementation fixes (the parameters of 00_scope.md R8) and the free values (draws) of the model. -/

namespace Sys2Proof

/-- The two peripheral instances of the hardware (R2, R246). -/
inductive Inst where
  /-- The embedded-controller side, a stub responder. -/
  | ec
  /-- The system-on-chip side, with the transfer engine. -/
  | soc
  deriving DecidableEq, Repr

/-- The direction of a bus access, as the InvalidAddress fault records it (R231). -/
inductive Dir where
  /-- RD. -/
  | rd
  /-- WR. -/
  | wr
  deriving DecidableEq, Repr

/-- A device that can stand at the SoC's attachment point (R40, R59). -/
inductive Device where
  /-- A device of which nothing is known: each exchange answers a free value (R59, D15). -/
  | unknown
  /-- The §8 test device: it answers `(b + 1) mod 256` (R59). -/
  | echo1
  /-- The EC instance acting as device: it answers EC_SENTINEL (R59, R174). -/
  | ecStub
  /-- A device whose exchange issues an operation to the SoC instance that called it: RF_REENTRANT (R59, R237, D33). -/
  | reentrant
  deriving DecidableEq, Repr

/-- WO_READ_MODE: what a read returns in the bits of a write-only field (R8, D8). -/
inductive WoReadMode where
  /-- A fresh unconstrained value on every read (the spec's default). -/
  | draw
  /-- Zero. -/
  | zero
  deriving DecidableEq, Repr

/-- HOLD_STATUS_MODE: what drives the SoC SPI_HOLD status facet (R8, R209, D10). -/
inductive HoldStatusMode where
  /-- Only SOC.ENV.SET_STATUS drives it (the spec's default). -/
  | environment
  /-- Every SOC.ENV.HOLD_SET writes the level into it as well. -/
  | coupled
  deriving DecidableEq, Repr

/-- The parameters of R8, fixed before the first operation (R264). A machine carries them in its state, and no operation changes them. -/
structure Params where
  /-- BASE_EC, the system address of the EC window (R8, R50, D2). -/
  baseEc : Nat
  /-- BASE_SOC, the system address of the SoC window (R8, R50, D2). -/
  baseSoc : Nat
  /-- EC_SENTINEL, the byte the EC stub answers (R8, R174, D14). -/
  ecSentinel : Byte
  /-- WO_READ_MODE (R8, R104, D8). -/
  woReadMode : WoReadMode
  /-- HOLD_STATUS_MODE (R8, R209, D10). -/
  holdStatusMode : HoldStatusMode
  /-- HOLD_INIT, the level of the hold input when the run starts (R8, D17). -/
  holdInit : Bool
  /-- DEVICE_INIT, the device attached when the run starts (R8, D15). -/
  deviceInit : Option Device
  deriving DecidableEq, Repr

/-- BASE_EC of the machine `State.reset` stands for: OPEN, no value in the spec (R8, D2; log 2). -/
opaque Config.baseEc : Nat

/-- BASE_SOC of the machine `State.reset` stands for: OPEN, no value in the spec (R8, D2; log 2). -/
opaque Config.baseSoc : Nat

/-- EC_SENTINEL of the machine `State.reset` stands for: OPEN, no value in the spec (R8, D14; log 3). -/
opaque Config.ecSentinel : Byte

/-- The value of the `n`-th draw for the bits of a write-only field of an instance: free (R104, D8; log 5). -/
opaque Config.draw : Inst → Nat → Word

/-- The answer of an unknown device to the byte presented at its `n`-th exchange: free (R59, D15; log 6). -/
opaque Config.deviceReply : Nat → Byte → Byte

/-- The parameters of the machine `State.reset` stands for: the spec's defaults for the two modes (R8); the bases and the
sentinel open; DESIGN CHOICE (log 4), unsafe: the hold input starts at 0 and no device is attached. -/
def Config.params : Params where
  baseEc := Config.baseEc
  baseSoc := Config.baseSoc
  ecSentinel := Config.ecSentinel
  woReadMode := .draw
  holdStatusMode := .environment
  holdInit := false
  deviceInit := none

end Sys2Proof
end

