-- ==== Sys2Proof/Syntax.lean ====
section
/-! DEFINITION. The operations: one constructor for every row of spec/opcode_table.json, the record form in which an
operation arrives (30_encoding.md R70), and the spec's own text form and pseudo-operations (R80, R81). -/

namespace Sys2Proof

/-- One operation of the hardware. Operands: `wdata` the written word, `off` an unmapped window offset, `src` an EC source
index, `k` a bit position of the EC Status register, `b` and `level` one-bit inputs (R72, R74). -/
inductive Instr where
  /-- EC.RD.CONTROL (R160). -/
  | ecRdControl
  /-- EC.WR.CONTROL (R161). -/
  | ecWrControl (wdata : Word)
  /-- EC.RD.STATUS (R162). -/
  | ecRdStatus
  /-- EC.WR.STATUS (R163). -/
  | ecWrStatus (wdata : Word)
  /-- EC.RD.EVSTATUS (R164). -/
  | ecRdEvStatus
  /-- EC.WR.EVSTATUS (R165). -/
  | ecWrEvStatus (wdata : Word)
  /-- EC.RD.EVPENDING (R166). -/
  | ecRdEvPending
  /-- EC.WR.EVPENDING (R167). -/
  | ecWrEvPending (wdata : Word)
  /-- EC.RD.EVENABLE (R168). -/
  | ecRdEvEnable
  /-- EC.WR.EVENABLE (R169). -/
  | ecWrEvEnable (wdata : Word)
  /-- EC.RD.UNMAPPED (R170). -/
  | ecRdUnmapped (off : Offset)
  /-- EC.WR.UNMAPPED (R171). -/
  | ecWrUnmapped (off : Offset) (wdata : Word)
  /-- EC.RST (R175). -/
  | ecRst
  /-- EC.ENV.SET_STATUS (R172). -/
  | ecEnvSetStatus (src : BitVec 2) (b : Bool)
  /-- EC.ENV.XFER (R174). -/
  | ecEnvXfer (b : Byte)
  /-- EC.ENV.ECSTAT_SET (R173). -/
  | ecEnvEcstatSet (k : BitVec 5) (b : Bool)
  /-- SOC.RD.TX (R190). -/
  | socRdTx
  /-- SOC.WR.TX (R191). -/
  | socWrTx (wdata : Word)
  /-- SOC.RD.RX (R192). -/
  | socRdRx
  /-- SOC.WR.RX (R193). -/
  | socWrRx (wdata : Word)
  /-- SOC.RD.CONTROL (R194). -/
  | socRdControl
  /-- SOC.WR.CONTROL (R195). -/
  | socWrControl (wdata : Word)
  /-- SOC.RD.STATUS (R196). -/
  | socRdStatus
  /-- SOC.WR.STATUS (R197). -/
  | socWrStatus (wdata : Word)
  /-- SOC.RD.EVSTATUS (R198). -/
  | socRdEvStatus
  /-- SOC.WR.EVSTATUS (R199). -/
  | socWrEvStatus (wdata : Word)
  /-- SOC.RD.EVPENDING (R200). -/
  | socRdEvPending
  /-- SOC.WR.EVPENDING (R201). -/
  | socWrEvPending (wdata : Word)
  /-- SOC.RD.EVENABLE (R202). -/
  | socRdEvEnable
  /-- SOC.WR.EVENABLE (R203). -/
  | socWrEvEnable (wdata : Word)
  /-- SOC.RD.UNMAPPED (R204). -/
  | socRdUnmapped (off : Offset)
  /-- SOC.WR.UNMAPPED (R205). -/
  | socWrUnmapped (off : Offset) (wdata : Word)
  /-- SOC.RST (R206). -/
  | socRst
  /-- SOC.ENV.HOLD_SET (R207). -/
  | socEnvHoldSet (level : Bool)
  /-- SOC.ENV.SET_STATUS (R208). -/
  | socEnvSetStatus (b : Bool)
  /-- SOC.ENV.ATTACH (R210). -/
  | socEnvAttach (d : Device)
  /-- SOC.ENV.DETACH (R211). -/
  | socEnvDetach
  deriving DecidableEq, Repr

/-- An operation as it arrives: the instance, the selector word and the operand (R70). A format without an operand does not
look at the operand word (log 9); a device stands as its code (log 8). -/
structure OpRecord where
  /-- The instance the operation is applied to. -/
  inst : Inst
  /-- The selector word, `kind ++ off` (R71). -/
  sel : Selector
  /-- The operand word. -/
  operand : Word
  deriving DecidableEq, Repr

/-- What the environment hands to the machine: an operation record (R70), a bus access stated at an instance's window with
its size (R52, R54), or one stated at a system address (R50, R11). -/
inductive Request where
  /-- An operation record. -/
  | op (r : OpRecord)
  /-- A bus access of `size` bytes at window offset `off` of `inst`. -/
  | access (inst : Inst) (dir : Dir) (off size : Nat) (wdata : Word)
  /-- A bus access of `size` bytes at system address `addr`: MemRead and MemWrite. -/
  | mem (dir : Dir) (addr size : Nat) (wdata : Word)
  deriving DecidableEq, Repr

/-- Why a request spells no operation (R237). -/
inductive Reject where
  /-- RF_WIDTH: an access of a size other than 4 bytes (R54). -/
  | width
  /-- RF_WINDOW: an access outside the window (R52). -/
  | window
  /-- RF_SELECTOR: a reserved selector, or one the instance or mode does not offer (R78). -/
  | selector
  /-- RF_OPERAND: an environment operand out of range (R77). -/
  | operand
  deriving DecidableEq, Repr

/-- The operation's name in spec/opcode_table.json. -/
def Instr.mnemonic : Instr → String
  | .ecRdControl => "EC.RD.CONTROL"
  | .ecWrControl _ => "EC.WR.CONTROL"
  | .ecRdStatus => "EC.RD.STATUS"
  | .ecWrStatus _ => "EC.WR.STATUS"
  | .ecRdEvStatus => "EC.RD.EVSTATUS"
  | .ecWrEvStatus _ => "EC.WR.EVSTATUS"
  | .ecRdEvPending => "EC.RD.EVPENDING"
  | .ecWrEvPending _ => "EC.WR.EVPENDING"
  | .ecRdEvEnable => "EC.RD.EVENABLE"
  | .ecWrEvEnable _ => "EC.WR.EVENABLE"
  | .ecRdUnmapped _ => "EC.RD.UNMAPPED"
  | .ecWrUnmapped _ _ => "EC.WR.UNMAPPED"
  | .ecRst => "EC.RST"
  | .ecEnvSetStatus _ _ => "EC.ENV.SET_STATUS"
  | .ecEnvXfer _ => "EC.ENV.XFER"
  | .ecEnvEcstatSet _ _ => "EC.ENV.ECSTAT_SET"
  | .socRdTx => "SOC.RD.TX"
  | .socWrTx _ => "SOC.WR.TX"
  | .socRdRx => "SOC.RD.RX"
  | .socWrRx _ => "SOC.WR.RX"
  | .socRdControl => "SOC.RD.CONTROL"
  | .socWrControl _ => "SOC.WR.CONTROL"
  | .socRdStatus => "SOC.RD.STATUS"
  | .socWrStatus _ => "SOC.WR.STATUS"
  | .socRdEvStatus => "SOC.RD.EVSTATUS"
  | .socWrEvStatus _ => "SOC.WR.EVSTATUS"
  | .socRdEvPending => "SOC.RD.EVPENDING"
  | .socWrEvPending _ => "SOC.WR.EVPENDING"
  | .socRdEvEnable => "SOC.RD.EVENABLE"
  | .socWrEvEnable _ => "SOC.WR.EVENABLE"
  | .socRdUnmapped _ => "SOC.RD.UNMAPPED"
  | .socWrUnmapped _ _ => "SOC.WR.UNMAPPED"
  | .socRst => "SOC.RST"
  | .socEnvHoldSet _ => "SOC.ENV.HOLD_SET"
  | .socEnvSetStatus _ => "SOC.ENV.SET_STATUS"
  | .socEnvAttach _ => "SOC.ENV.ATTACH"
  | .socEnvDetach => "SOC.ENV.DETACH"

/-- Pseudo-operation `SEND v` (R81). -/
def Instr.send (v : Word) : Instr := .socWrTx v

/-- Pseudo-operation `ACK <inst>, m` (R81). -/
def Instr.ack (p : Inst) (m : Word) : Instr :=
  match p with
  | .ec => .ecWrEvPending m
  | .soc => .socWrEvPending m

/-- Pseudo-operation `UNMASK <inst>, m`: it stores `m`, it does not OR it in (R81). -/
def Instr.unmask (p : Inst) (m : Word) : Instr :=
  match p with
  | .ec => .ecWrEvEnable m
  | .soc => .socWrEvEnable m

/-- Pseudo-operation `HOLD l` (R81). -/
def Instr.hold (l : Bool) : Instr := .socEnvHoldSet l

end Sys2Proof
end

