-- ==== Sys2Proof/WellFormed.lean ====
section
/-! DEFINITION. Which operations the encoding can spell: an unmapped access names an unmapped offset (20_memory.md R51), a
source index is below 3 and a Status position is one of the eight (30_encoding.md R74). -/

namespace Sys2Proof

/-- The mapped offsets of an instance (R51). -/
def mappedOffsets : Inst → List Offset
  | .ec => [0x000, 0x004, 0x008, 0x00C, 0x010]
  | .soc => [0x000, 0x004, 0x008, 0x00C, 0x010, 0x014, 0x018]

/-- `off` is mapped for `p` (R51). -/
def mapped (p : Inst) (off : Offset) : Bool := (mappedOffsets p).contains off

/-- The bit positions of the eight EC Status fields (R26). -/
def ecstatPositions : List (BitVec 5) := [0, 1, 2, 3, 16, 17, 30, 31]

/-- `k` is the position of an EC Status field (R26). -/
def isEcstatPosition (k : BitVec 5) : Bool := ecstatPositions.contains k

/-- The operation is one the encoding spells. -/
def WellFormed : Instr → Bool
  | .ecRdUnmapped off => !mapped .ec off
  | .ecWrUnmapped off _ => !mapped .ec off
  | .socRdUnmapped off => !mapped .soc off
  | .socWrUnmapped off _ => !mapped .soc off
  | .ecEnvSetStatus src _ => src != 3
  | .ecEnvEcstatSet k _ => isEcstatPosition k
  | .ecRdControl => true
  | .ecWrControl _ => true
  | .ecRdStatus => true
  | .ecWrStatus _ => true
  | .ecRdEvStatus => true
  | .ecWrEvStatus _ => true
  | .ecRdEvPending => true
  | .ecWrEvPending _ => true
  | .ecRdEvEnable => true
  | .ecWrEvEnable _ => true
  | .ecRst => true
  | .ecEnvXfer _ => true
  | .socRdTx => true
  | .socWrTx _ => true
  | .socRdRx => true
  | .socWrRx _ => true
  | .socRdControl => true
  | .socWrControl _ => true
  | .socRdStatus => true
  | .socWrStatus _ => true
  | .socRdEvStatus => true
  | .socWrEvStatus _ => true
  | .socRdEvPending => true
  | .socWrEvPending _ => true
  | .socRdEvEnable => true
  | .socWrEvEnable _ => true
  | .socRst => true
  | .socEnvHoldSet _ => true
  | .socEnvSetStatus _ => true
  | .socEnvAttach _ => true
  | .socEnvDetach => true

end Sys2Proof
end

