-- ==== Sys2Proof/Decode.lean ====
section
/-! DEFINITION. Decoding an operation record (30_encoding.md R71-R78), reading bus accesses as operation records (20_memory.md
R50, R52, R54), the encoder, the spec's text form (R80), and the host's probe of one table word. -/

namespace Sys2Proof

/-- The selector's `kind` field (R71). -/
inductive Kind where
  /-- 00, read. -/
  | rd
  /-- 01, write. -/
  | wr
  /-- 10, reset. -/
  | rst
  /-- 11, environment input. -/
  | env
  deriving DecidableEq, Repr

/-- The two bits of `kind` (R71). -/
def kindBits : Kind → BitVec 2
  | .rd => 0
  | .wr => 1
  | .rst => 2
  | .env => 3

/-- `sel = kind ++ off` (R71). -/
def selector (k : Kind) (off : Offset) : Selector := kindBits k ++ off

/-- Bits 13:12 of a selector (R71). -/
def selKind (sel : Selector) : Kind :=
  let k := sel.extractLsb' 12 2
  if k = 0 then .rd else if k = 1 then .wr else if k = 2 then .rst else .env

/-- Bits 11:0 of a selector (R71). -/
def selOff (sel : Selector) : Offset := sel.extractLsb' 0 12

/-- A one-bit operand in range: 0 or 1, else RF_OPERAND (R77, R237). -/
def bitOperand (w : Word) : Except Reject Bool :=
  if w = 0 then .ok false else if w = 1 then .ok true else .error .operand

/-- The operand word of a one-bit input. -/
def bitWord (b : Bool) : Word := if b then 1 else 0

/-- A one-byte operand in range (R74); above 255 it is out of range (log 16). -/
def byteOperand (w : Word) : Except Reject Byte :=
  if w ≤ 0xFF then .ok (w.setWidth 8) else .error .operand

/-- The code of a device in an ATTACH operand. DESIGN CHOICE (log 8): the spec names devices and numbers none. -/
def deviceCode : Device → Word
  | .unknown => 0
  | .echo1 => 1
  | .ecStub => 2
  | .reentrant => 3

/-- The device an ATTACH operand names (R74, R210); another code is out of range (log 8). -/
def deviceOperand (w : Word) : Except Reject Device :=
  if w = 0 then .ok .unknown
  else if w = 1 then .ok .echo1
  else if w = 2 then .ok .ecStub
  else if w = 3 then .ok .reentrant
  else .error .operand

/-- The RD row of an offset; an offset without a row is unmapped (R77 steps 1 and 2). -/
def decodeRd (p : Inst) (off : Offset) : Instr :=
  match p with
  | .ec =>
    if off = 0x000 then .ecRdControl
    else if off = 0x004 then .ecRdStatus
    else if off = 0x008 then .ecRdEvStatus
    else if off = 0x00C then .ecRdEvPending
    else if off = 0x010 then .ecRdEvEnable
    else .ecRdUnmapped off
  | .soc =>
    if off = 0x000 then .socRdTx
    else if off = 0x004 then .socRdRx
    else if off = 0x008 then .socRdControl
    else if off = 0x00C then .socRdStatus
    else if off = 0x010 then .socRdEvStatus
    else if off = 0x014 then .socRdEvPending
    else if off = 0x018 then .socRdEvEnable
    else .socRdUnmapped off

/-- The WR row of an offset; an offset without a row is unmapped (R77 steps 1 and 2). -/
def decodeWr (p : Inst) (off : Offset) (wdata : Word) : Instr :=
  match p with
  | .ec =>
    if off = 0x000 then .ecWrControl wdata
    else if off = 0x004 then .ecWrStatus wdata
    else if off = 0x008 then .ecWrEvStatus wdata
    else if off = 0x00C then .ecWrEvPending wdata
    else if off = 0x010 then .ecWrEvEnable wdata
    else .ecWrUnmapped off wdata
  | .soc =>
    if off = 0x000 then .socWrTx wdata
    else if off = 0x004 then .socWrRx wdata
    else if off = 0x008 then .socWrControl wdata
    else if off = 0x00C then .socWrStatus wdata
    else if off = 0x010 then .socWrEvStatus wdata
    else if off = 0x014 then .socWrEvPending wdata
    else if off = 0x018 then .socWrEvEnable wdata
    else .socWrUnmapped off wdata

/-- An EC environment input (R74): SET_STATUS rows 0x100 to 0x103 and ECSTAT_SET rows 0x400 to 0x41F as the opcode table's
masks give them; an index out of range there is RF_OPERAND (R172, R173), any other offset RF_SELECTOR (R78). -/
def decodeEnvEc (off : Offset) (w : Word) : Except Reject Instr :=
  if off &&& 0xFFC = 0x100 then
    if off.extractLsb' 0 2 = 3 then .error .operand
    else (bitOperand w).map (.ecEnvSetStatus (off.extractLsb' 0 2))
  else if off = 0x300 then (byteOperand w).map .ecEnvXfer
  else if off &&& 0xFE0 = 0x400 then
    if isEcstatPosition (off.extractLsb' 0 5) then (bitOperand w).map (.ecEnvEcstatSet (off.extractLsb' 0 5))
    else .error .operand
  else .error .selector

/-- A SoC environment input (R74); SET_STATUS is offered only in Environment mode (R208). -/
def decodeEnvSoc (mode : HoldStatusMode) (off : Offset) (w : Word) : Except Reject Instr :=
  if off = 0x000 then (bitOperand w).map .socEnvHoldSet
  else if off = 0x101 then
    match mode with
    | .environment => (bitOperand w).map .socEnvSetStatus
    | .coupled => .error .selector
  else if off = 0x200 then (deviceOperand w).map .socEnvAttach
  else if off = 0x201 then .ok .socEnvDetach
  else .error .selector

/-- The decode procedure (R77), total on every record. -/
def decode (mode : HoldStatusMode) (r : OpRecord) : Except Reject Instr :=
  match selKind r.sel with
  | .rd => .ok (decodeRd r.inst (selOff r.sel))
  | .wr => .ok (decodeWr r.inst (selOff r.sel) r.operand)
  | .rst =>
    if selOff r.sel = 0 then
      match r.inst with
      | .ec => .ok .ecRst
      | .soc => .ok .socRst
    else .error .selector
  | .env =>
    match r.inst with
    | .ec => decodeEnvEc (selOff r.sel) r.operand
    | .soc => decodeEnvSoc mode (selOff r.sel) r.operand

/-- The instance an operation is applied to (R70). -/
def Instr.inst : Instr → Inst
  | .ecRdControl => .ec
  | .ecWrControl _ => .ec
  | .ecRdStatus => .ec
  | .ecWrStatus _ => .ec
  | .ecRdEvStatus => .ec
  | .ecWrEvStatus _ => .ec
  | .ecRdEvPending => .ec
  | .ecWrEvPending _ => .ec
  | .ecRdEvEnable => .ec
  | .ecWrEvEnable _ => .ec
  | .ecRdUnmapped _ => .ec
  | .ecWrUnmapped _ _ => .ec
  | .ecRst => .ec
  | .ecEnvSetStatus _ _ => .ec
  | .ecEnvXfer _ => .ec
  | .ecEnvEcstatSet _ _ => .ec
  | .socRdTx => .soc
  | .socWrTx _ => .soc
  | .socRdRx => .soc
  | .socWrRx _ => .soc
  | .socRdControl => .soc
  | .socWrControl _ => .soc
  | .socRdStatus => .soc
  | .socWrStatus _ => .soc
  | .socRdEvStatus => .soc
  | .socWrEvStatus _ => .soc
  | .socRdEvPending => .soc
  | .socWrEvPending _ => .soc
  | .socRdEvEnable => .soc
  | .socWrEvEnable _ => .soc
  | .socRdUnmapped _ => .soc
  | .socWrUnmapped _ _ => .soc
  | .socRst => .soc
  | .socEnvHoldSet _ => .soc
  | .socEnvSetStatus _ => .soc
  | .socEnvAttach _ => .soc
  | .socEnvDetach => .soc

/-- The operation's format (R71). -/
def Instr.kind : Instr → Kind
  | .ecRdControl => .rd
  | .ecWrControl _ => .wr
  | .ecRdStatus => .rd
  | .ecWrStatus _ => .wr
  | .ecRdEvStatus => .rd
  | .ecWrEvStatus _ => .wr
  | .ecRdEvPending => .rd
  | .ecWrEvPending _ => .wr
  | .ecRdEvEnable => .rd
  | .ecWrEvEnable _ => .wr
  | .ecRdUnmapped _ => .rd
  | .ecWrUnmapped _ _ => .wr
  | .ecRst => .rst
  | .ecEnvSetStatus _ _ => .env
  | .ecEnvXfer _ => .env
  | .ecEnvEcstatSet _ _ => .env
  | .socRdTx => .rd
  | .socWrTx _ => .wr
  | .socRdRx => .rd
  | .socWrRx _ => .wr
  | .socRdControl => .rd
  | .socWrControl _ => .wr
  | .socRdStatus => .rd
  | .socWrStatus _ => .wr
  | .socRdEvStatus => .rd
  | .socWrEvStatus _ => .wr
  | .socRdEvPending => .rd
  | .socWrEvPending _ => .wr
  | .socRdEvEnable => .rd
  | .socWrEvEnable _ => .wr
  | .socRdUnmapped _ => .rd
  | .socWrUnmapped _ _ => .wr
  | .socRst => .rst
  | .socEnvHoldSet _ => .env
  | .socEnvSetStatus _ => .env
  | .socEnvAttach _ => .env
  | .socEnvDetach => .env

/-- The instance offers the operation in this mode: all but SOC.ENV.SET_STATUS are offered in both (R208). -/
def Instr.offered (mode : HoldStatusMode) (i : Instr) : Bool :=
  match i with
  | .socEnvSetStatus _ => mode == .environment
  | _ => true

/-- The record of an operation (R71-R74); a format without an operand has the operand word 0. -/
def encode : Instr → OpRecord
  | .ecRdControl => ⟨.ec, selector .rd 0x000, 0⟩
  | .ecWrControl wdata => ⟨.ec, selector .wr 0x000, wdata⟩
  | .ecRdStatus => ⟨.ec, selector .rd 0x004, 0⟩
  | .ecWrStatus wdata => ⟨.ec, selector .wr 0x004, wdata⟩
  | .ecRdEvStatus => ⟨.ec, selector .rd 0x008, 0⟩
  | .ecWrEvStatus wdata => ⟨.ec, selector .wr 0x008, wdata⟩
  | .ecRdEvPending => ⟨.ec, selector .rd 0x00C, 0⟩
  | .ecWrEvPending wdata => ⟨.ec, selector .wr 0x00C, wdata⟩
  | .ecRdEvEnable => ⟨.ec, selector .rd 0x010, 0⟩
  | .ecWrEvEnable wdata => ⟨.ec, selector .wr 0x010, wdata⟩
  | .ecRdUnmapped off => ⟨.ec, selector .rd off, 0⟩
  | .ecWrUnmapped off wdata => ⟨.ec, selector .wr off, wdata⟩
  | .ecRst => ⟨.ec, selector .rst 0x000, 0⟩
  | .ecEnvSetStatus src b => ⟨.ec, selector .env (0x100 ||| src.setWidth 12), (bitWord b)⟩
  | .ecEnvXfer b => ⟨.ec, selector .env 0x300, (b.setWidth 32)⟩
  | .ecEnvEcstatSet k b => ⟨.ec, selector .env (0x400 ||| k.setWidth 12), (bitWord b)⟩
  | .socRdTx => ⟨.soc, selector .rd 0x000, 0⟩
  | .socWrTx wdata => ⟨.soc, selector .wr 0x000, wdata⟩
  | .socRdRx => ⟨.soc, selector .rd 0x004, 0⟩
  | .socWrRx wdata => ⟨.soc, selector .wr 0x004, wdata⟩
  | .socRdControl => ⟨.soc, selector .rd 0x008, 0⟩
  | .socWrControl wdata => ⟨.soc, selector .wr 0x008, wdata⟩
  | .socRdStatus => ⟨.soc, selector .rd 0x00C, 0⟩
  | .socWrStatus wdata => ⟨.soc, selector .wr 0x00C, wdata⟩
  | .socRdEvStatus => ⟨.soc, selector .rd 0x010, 0⟩
  | .socWrEvStatus wdata => ⟨.soc, selector .wr 0x010, wdata⟩
  | .socRdEvPending => ⟨.soc, selector .rd 0x014, 0⟩
  | .socWrEvPending wdata => ⟨.soc, selector .wr 0x014, wdata⟩
  | .socRdEvEnable => ⟨.soc, selector .rd 0x018, 0⟩
  | .socWrEvEnable wdata => ⟨.soc, selector .wr 0x018, wdata⟩
  | .socRdUnmapped off => ⟨.soc, selector .rd off, 0⟩
  | .socWrUnmapped off wdata => ⟨.soc, selector .wr off, wdata⟩
  | .socRst => ⟨.soc, selector .rst 0x000, 0⟩
  | .socEnvHoldSet level => ⟨.soc, selector .env 0x000, (bitWord level)⟩
  | .socEnvSetStatus b => ⟨.soc, selector .env 0x101, (bitWord b)⟩
  | .socEnvAttach d => ⟨.soc, selector .env 0x200, (deviceCode d)⟩
  | .socEnvDetach => ⟨.soc, selector .env 0x201, 0⟩

/-- The selector of a bus access (R72). -/
def accessSelector (d : Dir) (off : Offset) : Selector :=
  match d with
  | .rd => selector .rd off
  | .wr => selector .wr off

/-- A bus access at an instance's window: outside the window RF_WINDOW (R52), a size other than 4 RF_WIDTH (R54). DESIGN CHOICE
(log 11): an access that is both is RF_WINDOW, since it does not reach the instance. DESIGN CHOICE (log 23): a size other than 4
at an unmapped or misaligned offset of the window is RF_WIDTH, where R51, R55 and R239 read alone would give InvalidAddress. -/
def resolveAccess (p : Inst) (d : Dir) (off size : Nat) (wdata : Word) : Except Reject OpRecord :=
  if 0x1000 ≤ off then .error .window
  else if size = 4 then .ok ⟨p, accessSelector d (BitVec.ofNat 12 off), wdata⟩
  else .error .width

/-- `BASE <= a < BASE + 0x1000` (R50). -/
def inWindow (base a : Nat) : Bool := decide (base ≤ a) && decide (a < base + 0x1000)

/-- A request as an operation record; a system address in a window is the access at `off = a - BASE` (R50), one in no window
does not reach the block (R52, log 11). -/
def Request.resolve (p : Params) (q : Request) : Except Reject OpRecord :=
  match q with
  | .op r => .ok r
  | .access inst d off size wdata => resolveAccess inst d off size wdata
  | .mem d addr size wdata =>
    if inWindow p.baseEc addr then resolveAccess .ec d (addr - p.baseEc) size wdata
    else if inWindow p.baseSoc addr then resolveAccess .soc d (addr - p.baseSoc) size wdata
    else .error .window

/-- The two windows do not overlap (R60). -/
def disjointWindows (p : Params) : Bool :=
  decide (p.baseEc + 0x1000 ≤ p.baseSoc) || decide (p.baseSoc + 0x1000 ≤ p.baseEc)

/-- Upper-case hexadecimal digits, `n` of them. -/
def hexDigits (n : Nat) (v : Nat) : String :=
  match n with
  | 0 => ""
  | n + 1 => hexDigits n (v / 16) ++ String.ofList [(Nat.digitChar (v % 16)).toUpper]

/-- `EC` or `SOC` (R80). -/
def instText : Inst → String
  | .ec => "EC"
  | .soc => "SOC"

/-- A register's name (R80); an unmapped offset in hex. -/
def offText (p : Inst) (off : Offset) : String :=
  match p, off.toNat with
  | .ec, 0x000 => "CONTROL"
  | .ec, 0x004 => "STATUS"
  | .ec, 0x008 => "EVSTATUS"
  | .ec, 0x00C => "EVPENDING"
  | .ec, 0x010 => "EVENABLE"
  | .soc, 0x000 => "TX"
  | .soc, 0x004 => "RX"
  | .soc, 0x008 => "CONTROL"
  | .soc, 0x00C => "STATUS"
  | .soc, 0x010 => "EVSTATUS"
  | .soc, 0x014 => "EVPENDING"
  | .soc, 0x018 => "EVENABLE"
  | _, n => "0x" ++ hexDigits 3 n

/-- A device's name (R59, R80). -/
def deviceText : Device → String
  | .unknown => "Unknown"
  | .echo1 => "Echo1"
  | .ecStub => "EcStub"
  | .reentrant => "Reentrant"

/-- The operation in the spec's text form (R80). -/
def Instr.text (i : Instr) : String :=
  let r := encode i
  let head := instText r.inst ++ ", "
  match i with
  | .ecEnvSetStatus src b => "ENV EC, SET_STATUS(" ++ toString src.toNat ++ "), " ++ toString b.toNat
  | .ecEnvXfer b => "ENV EC, XFER, 0x" ++ hexDigits 2 b.toNat
  | .ecEnvEcstatSet k b => "ENV EC, ECSTAT_SET(" ++ toString k.toNat ++ "), " ++ toString b.toNat
  | .socEnvHoldSet level => "ENV SOC, HOLD_SET, " ++ toString level.toNat
  | .socEnvSetStatus b => "ENV SOC, SET_STATUS(1), " ++ toString b.toNat
  | .socEnvAttach d => "ENV SOC, ATTACH, " ++ deviceText d
  | .socEnvDetach => "ENV SOC, DETACH"
  | _ =>
    match i.kind with
    | .rd => "RD " ++ head ++ offText r.inst (selOff r.sel)
    | .wr => "WR " ++ head ++ offText r.inst (selOff r.sel) ++ ", 0x" ++ hexDigits 8 r.operand.toNat
    | .rst => "RST " ++ instText r.inst
    | .env => "ENV " ++ instText r.inst

/-- The instance a table word without an instance is read for. DESIGN CHOICE (log 10): the SoC where it has an exact row for
the selector, else the EC. -/
def tableInst (sel : Selector) : Inst :=
  match decode .environment ⟨.soc, sel, 0⟩ with
  | .ok (.socRdUnmapped _) => .ec
  | .ok (.socWrUnmapped _ _) => .ec
  | .ok _ => .soc
  | .error _ => .ec

/-- The record a table word stands for: its low 14 bits are the selector (R71), the operand word is 0 (log 10). -/
def tableRecord (w : Nat) : OpRecord :=
  let sel := BitVec.ofNat 14 w
  ⟨tableInst sel, sel, 0⟩

/-- What the decoder reads from a table word, in the spec's default mode (R8). -/
def decodeTableWord (_nbits w : Nat) : Option Instr :=
  match decode .environment (tableRecord w) with
  | .ok i => some i
  | .error _ => none

end Sys2Proof
end

