-- ==== Sys2Proof/Machine/State.lean ====
section
/-! DEFINITION. The state of the two instances (10_state.md R22, R23), the fault and refusal reasons (60_exceptions.md R231,
R237) and the state the run starts in (70_reset_and_hazards.md R260). -/

namespace Sys2Proof.Machine

/-- One named interrupt cause with its three facets (R24). -/
structure EventSource where
  /-- The raw condition. -/
  status : Bool
  /-- The latch, cleared by write-one-to-clear. -/
  pending : Bool
  /-- The mask bit. -/
  enable : Bool
  deriving DecidableEq, Repr

/-- A diagnostic with what it records (R232, R234). -/
inductive Diagnostic where
  /-- Code 2: a Tx write wider than 16 bits, with the raw word (R235). -/
  | valueTruncated (raw : Word)
  /-- Code 3: no device attached, with the 16-bit value (R236). -/
  | noDeviceAttached (value : Half)
  /-- Code 4: hold back-pressure, with the 16-bit value (R236). -/
  | holdAsserted (value : Half)
  deriving DecidableEq, Repr

/-- The EC instance (R22). -/
structure EcState where
  /-- Backing of the Status register (R26). -/
  ecstat : Word
  /-- Source 0. -/
  spiAvail : EventSource
  /-- Source 1. -/
  spiEvent : EventSource
  /-- Source 2. -/
  spiErr : EventSource
  /-- The interrupt line output (R37). -/
  line : Bool
  /-- The diagnostic log (R41). -/
  diag : List Diagnostic
  deriving DecidableEq, Repr

/-- The SoC instance (R23). -/
structure SocState where
  /-- The last received value (R31). -/
  rx : Half
  /-- Control.INTENA (R32). -/
  intena : Bool
  /-- Control.AUTOHOLD (R32). -/
  autohold : Bool
  /-- transactionInProgress (R38). -/
  tip : Bool
  /-- Source 0. -/
  spiInt : EventSource
  /-- Source 1. -/
  spiHold : EventSource
  /-- The interrupt line output (R37). -/
  line : Bool
  /-- The level of the hold input (R39). -/
  holdIn : Bool
  /-- The attached device (R40). -/
  device : Option Device
  /-- The diagnostic log (R41). -/
  diag : List Diagnostic
  /-- The byte pairs (out, in) exchanged with the device, in order (R41). -/
  xfers : List (Byte × Byte)
  deriving DecidableEq, Repr

/-- What the last operation returned (R70): the model's own field (log 12). -/
inductive Response where
  /-- No operation has returned yet. -/
  | none
  /-- The operation completed and returned nothing: a write's acknowledgment, a reset, an environment input. -/
  | ack
  /-- A read returned this word. -/
  | rdata (w : Word)
  /-- The EC stub's exchange returned this byte (R174). -/
  | byte (b : Byte)
  deriving DecidableEq, Repr

/-- How many free values each source of them has given: the model's own (logs 5, 6). The sources are apart, so that a draw of one
instance moves no value of the other (R62). -/
structure Draws where
  /-- Draws for the write-only fields of the EC. -/
  ec : Nat
  /-- Draws for the write-only field of the SoC. -/
  soc : Nat
  /-- Answers an unknown device has given to the SoC. -/
  device : Nat
  deriving DecidableEq, Repr

/-- The machine: the two instances, the parameters, and the model's own fields. -/
structure State where
  /-- The EC instance. -/
  ec : EcState
  /-- The SoC instance. -/
  soc : SocState
  /-- The parameters of R8; no operation changes them (log 7). -/
  params : Params
  /-- The operations the environment has lined up, oldest first (R21, R62; log 1). -/
  requests : List Request
  /-- How many operations have been applied (R21). -/
  count : Nat
  /-- How many free values have been drawn, by source: the model's own (logs 5, 6). -/
  draws : Draws
  /-- What the last operation returned: the model's own (log 12). -/
  result : Response
  deriving DecidableEq, Repr

/-- Why a step ends in a fault. -/
inductive Fault where
  /-- Code 1, InvalidAddress: a RD or WR at an unmapped offset (R231). Raised by the RD.UNMAPPED and WR.UNMAPPED operations of
  both instances and by the register bank's offset decode. It is the spec's own outcome; safe. -/
  | invalidAddress (inst : Inst) (dir : Dir) (off : Offset)
  deriving DecidableEq, Repr

/-- Why a step is refused (R237). -/
inductive Refusal where
  /-- The operation has no meaning in the model yet: raised by an arm of exec; safe. -/
  | notModelled (mnemonic : String)
  /-- RF_WIDTH: a bus access of a size other than 4 (R54). Raised by reading the request; safe. -/
  | width
  /-- RF_WINDOW: a bus access outside the window (R52). Raised by reading the request; safe. -/
  | window
  /-- RF_SELECTOR: a reserved or not offered selector (R78, R208). Raised by decoding and by SOC.ENV.SET_STATUS in Coupled mode; safe. -/
  | selector
  /-- RF_OPERAND: an operand out of range (R77). Raised by decoding and by EC.ENV.SET_STATUS and ECSTAT_SET on an index out of range; safe. -/
  | operand
  /-- RF_REENTRANT: a device exchange that issues an operation to the SoC instance running it (R59). Raised by a Tx write's exchange; safe. -/
  | reentrant
  deriving DecidableEq, Repr

/-- A source with every facet 0 (R24). -/
def quietSource : EventSource := ⟨false, false, false⟩

/-- The EC instance at construction (R260). -/
def constructEc : EcState where
  ecstat := 0
  spiAvail := quietSource
  spiEvent := quietSource
  spiErr := quietSource
  line := false
  diag := []

/-- The SoC instance at construction (R260): the hold input at HOLD_INIT, the device DEVICE_INIT. -/
def constructSoc (p : Params) : SocState where
  rx := 0
  intena := false
  autohold := false
  tip := false
  spiInt := quietSource
  spiHold := quietSource
  line := false
  holdIn := p.holdInit
  device := p.deviceInit
  diag := []
  xfers := []

/-- The state a run starts in, for any parameters (R260). -/
def State.construct (p : Params) : State where
  ec := constructEc
  soc := constructSoc p
  params := p
  requests := []
  count := 0
  draws := ⟨0, 0, 0⟩
  result := .none

/-- The machine right after reset, at the model's parameters (R260; logs 2, 3, 4). -/
def State.reset : State := State.construct Config.params

end Sys2Proof.Machine
end

