-- ==== Sys2Proof/Machine/Ops.lean ====
section
/-! DEFINITION. The named operations over the state: the stored cells of the registers, the logs, the free values, the byte
exchange with a device, raising the one fault, the answers, and reset. -/

namespace Sys2Proof.Machine

/-- The five event sources by name (R7, R238). -/
inductive Source where
  /-- EC source 0. -/
  | spiAvail
  /-- EC source 1. -/
  | spiEvent
  /-- EC source 2. -/
  | spiErr
  /-- SoC source 0. -/
  | spiInt
  /-- SoC source 1. -/
  | spiHold
  deriving DecidableEq, Repr

/-- The three facets of a source (R24). -/
inductive Facet where
  /-- The raw condition. -/
  | status
  /-- The latch. -/
  | pending
  /-- The mask bit. -/
  | enable
  deriving DecidableEq, Repr

/-- A backing cell or live provider of a register field (R100). -/
inductive Cell where
  /-- No backing: a write-only field (R25, R30). -/
  | unbacked
  /-- One bit of `E.ecstat` (R26). -/
  | ecstat (k : Nat)
  /-- One facet of a source (R24). -/
  | facet (src : Source) (f : Facet)
  /-- `S.rx`. -/
  | rx
  /-- `S.intena`. -/
  | intena
  /-- `S.autohold`. -/
  | autohold
  /-- Live: `S.tip`. -/
  | tip
  /-- Live: `S.hold_in`, an input. -/
  | hold
  deriving DecidableEq, Repr

/-- A one-bit value as a word. -/
def bit (b : Bool) : Word := (BitVec.ofBool b).setWidth 32

/-- A source of the machine (R24). -/
def sourceOf (s : State) : Source → EventSource
  | .spiAvail => s.ec.spiAvail
  | .spiEvent => s.ec.spiEvent
  | .spiErr => s.ec.spiErr
  | .spiInt => s.soc.spiInt
  | .spiHold => s.soc.spiHold

/-- Replace a source. -/
def withSource (src : Source) (e : EventSource) (s : State) : State :=
  match src with
  | .spiAvail => { s with ec := { s.ec with spiAvail := e } }
  | .spiEvent => { s with ec := { s.ec with spiEvent := e } }
  | .spiErr => { s with ec := { s.ec with spiErr := e } }
  | .spiInt => { s with soc := { s.soc with spiInt := e } }
  | .spiHold => { s with soc := { s.soc with spiHold := e } }

/-- A facet of a source. -/
def facetOf (e : EventSource) : Facet → Bool
  | .status => e.status
  | .pending => e.pending
  | .enable => e.enable

/-- Replace one facet of a source. -/
def withFacet (f : Facet) (b : Bool) (e : EventSource) : EventSource :=
  match f with
  | .status => { e with status := b }
  | .pending => { e with pending := b }
  | .enable => { e with enable := b }

/-- Bit `k` of a word set to `b`. -/
def withBit (w : Word) (k : Nat) (b : Bool) : Word := (w &&& ~~~((1 : Word) <<< k)) ||| (bit b <<< k)

/-- The value of a cell, in the low bits of a word (R100, R104). -/
def cellRead (s : State) : Cell → Word
  | .unbacked => 0
  | .ecstat k => bit (s.ec.ecstat.getLsbD k)
  | .facet src f => bit (facetOf (sourceOf s src) f)
  | .rx => s.soc.rx.setWidth 32
  | .intena => bit s.soc.intena
  | .autohold => bit s.soc.autohold
  | .tip => bit s.soc.tip
  | .hold => bit s.soc.holdIn

/-- Store into a cell; a one-bit cell takes bit 0. An unbacked field stores nothing (R105), the hold input is the environment's (R39). -/
def cellWrite (c : Cell) (v : Word) (s : State) : State :=
  match c with
  | .unbacked => s
  | .ecstat k => { s with ec := { s.ec with ecstat := withBit s.ec.ecstat k (v.getLsbD 0) } }
  | .facet src f => withSource src (withFacet f (v.getLsbD 0) (sourceOf s src)) s
  | .rx => { s with soc := { s.soc with rx := v.setWidth 16 } }
  | .intena => { s with soc := { s.soc with intena := v.getLsbD 0 } }
  | .autohold => { s with soc := { s.soc with autohold := v.getLsbD 0 } }
  | .tip => { s with soc := { s.soc with tip := v.getLsbD 0 } }
  | .hold => s

/-- `diag(D)` of the SoC: append to its log (R234). No rule logs on the EC (log 20). -/
def logSoc (d : Diagnostic) (s : State) : State := { s with soc := { s.soc with diag := s.soc.diag ++ [d] } }

/-- The numeric code of a diagnostic (R232). -/
def diagnosticCode : Diagnostic → Nat
  | .valueTruncated _ => 2
  | .noDeviceAttached _ => 3
  | .holdAsserted _ => 4

/-- The numeric code of a fault (R232). -/
def faultCode : Fault → Nat
  | .invalidAddress _ _ _ => 1

/-- How many free values an instance's reads have drawn (log 5). -/
def readsOf (p : Inst) (s : State) : Nat :=
  match p with
  | .ec => s.draws.ec
  | .soc => s.draws.soc

/-- Set how many free values an instance's reads have drawn (log 5). -/
def withReads (p : Inst) (n : Nat) (s : State) : State :=
  match p with
  | .ec => { s with draws := { s.draws with ec := n } }
  | .soc => { s with draws := { s.draws with soc := n } }

/-- Set how many answers an unknown device has given (log 6). -/
def withReplies (n : Nat) (s : State) : State := { s with draws := { s.draws with device := n } }

/-- `draw(width)` of an instance: its next free value (R104), and the state after drawing it (log 5). -/
def drawBits (p : Inst) (width : Nat) (s : State) : Word × State :=
  (((Config.draw p (readsOf p s)).extractLsb' 0 width).setWidth 32, withReads p (readsOf p s + 1) s)

/-- The EC stub's `transmit`: the sentinel, whatever the byte, and no EC state changes (R174). -/
def ecTransmit (s : State) (_b : Byte) : Byte := s.params.ecSentinel

/-- A device's answer to one byte (R59); an unknown device's is a free value (log 6). -/
def deviceAnswer (d : Device) (b : Byte) (s : State) : Except Refusal (Byte × State) :=
  match d with
  | .unknown => .ok (Config.deviceReply s.draws.device b, withReplies (s.draws.device + 1) s)
  | .echo1 => .ok (b + 1, s)
  | .ecStub => .ok (ecTransmit s b, s)
  | .reentrant => .error .reentrant

/-- Append a byte pair to the exchange trace (R59). -/
def traceXfer (out inn : Byte) (s : State) : State := { s with soc := { s.soc with xfers := s.soc.xfers ++ [(out, inn)] } }

/-- `DevXfer(b)`: one byte exchange with the attached device, traced (R59). -/
def devXfer (d : Device) (b : Byte) (s : State) : Except Refusal (Byte × State) :=
  match deviceAnswer d b s with
  | .ok (r, t) => .ok (r, traceXfer b r t)
  | .error e => .error e

/-- `raise Fault(InvalidAddress)`: no state changes (R231, R102). -/
def raiseInvalidAddress (p : Inst) (d : Dir) (off : Offset) : Host.Outcome State Fault Refusal :=
  .fault (.invalidAddress p d off)

/-- Record what the operation returns (R70). -/
def respond (r : Response) (s : State) : State := { s with result := r }

/-- The operation ends normally and returns `r`. -/
def complete (r : Response) (s : State) : Host.Outcome State Fault Refusal := .next (respond r s)

/-- The refusal of a request or record that spells no operation (R237). -/
def refusalOf : Reject → Refusal
  | .width => .width
  | .window => .window
  | .selector => .selector
  | .operand => .operand

/-- The bank reset: 0 in every backing cell, the line untouched (R109). -/
def bankReset (p : Inst) (s : State) : State :=
  match p with
  | .ec => { s with ec := { s.ec with
      ecstat := 0, spiAvail := quietSource, spiEvent := quietSource, spiErr := quietSource } }
  | .soc => { s with soc := { s.soc with
      rx := 0, intena := false, autohold := false, tip := false, spiInt := quietSource, spiHold := quietSource } }

/-- Drive the interrupt line output of an instance (R37). -/
def withLine (p : Inst) (b : Bool) (s : State) : State :=
  match p with
  | .ec => { s with ec := { s.ec with line := b } }
  | .soc => { s with soc := { s.soc with line := b } }

/-- `Reset(P)`: the bank reset, then the line deasserted; no callback runs (R108). -/
def resetInst (p : Inst) (s : State) : State := withLine p false (bankReset p s)

/-- The operation at the head of the queue is taken: it leaves the queue and is counted (R21, R62). -/
def takeRequest (s : State) : State := { s with requests := s.requests.tail, count := s.count + 1 }

/-- The operation the environment offers next: none, a reason it spells none, or the operation (R77, R237). -/
def fetch (s : State) : Option (Except Reject Instr) :=
  match s.requests with
  | [] => none
  | q :: _ =>
    match q.resolve s.params with
    | .ok r => some (decode s.params.holdStatusMode r)
    | .error e => some (.error e)

/-- The state a bus master goes on from after a fault: the instance is unchanged, nothing is returned (R102, R231; log 13). -/
def afterFault (s : State) : State := respond .none (takeRequest s)

/-- Put a request where the next step takes it. -/
def placeRequest (q : Request) (s : State) : State := { s with requests := q :: s.requests }

end Sys2Proof.Machine
end

