-- ==== Sys2Proof/Machine/Flags.lean ====
section
/-! DEFINITION. The one-bit flags: the interrupt controller's setStatus, recompute and line (41_interrupt_controller.md). -/

namespace Sys2Proof.Machine

/-- Which instance a source belongs to (R7, R238). -/
def sourceInst : Source → Inst
  | .spiAvail => .ec
  | .spiEvent => .ec
  | .spiErr => .ec
  | .spiInt => .soc
  | .spiHold => .soc

/-- A source's index: its bit in EvStatus, EvPending and EvEnable (R7). -/
def sourceIndex : Source → Nat
  | .spiAvail => 0
  | .spiEvent => 1
  | .spiErr => 2
  | .spiInt => 0
  | .spiHold => 1

/-- The EC source of an index; 3 names none (R172). -/
def ecSource (src : BitVec 2) : Option Source :=
  if src = 0 then some .spiAvail
  else if src = 1 then some .spiEvent
  else if src = 2 then some .spiErr
  else none

/-- `setStatus(P, s, b)`: the status facet and nothing else (R120). -/
def setStatus (src : Source) (b : Bool) (s : State) : State := cellWrite (.facet src .status) (bit b) s

/-- The latch of one source: pending is forced to 1 while status and enable are 1 (R122). -/
def latch (e : EventSource) : EventSource :=
  if e.status && e.enable then { e with pending := true } else e

/-- The source requests an interrupt: pending and enable (R122). -/
def requesting (e : EventSource) : Bool := e.pending && e.enable

/-- Latch one source of the machine. -/
def latchSource (src : Source) (s : State) : State := withSource src (latch (sourceOf s src)) s

/-- The OR of pending and enable over the instance's sources (R37, R122). -/
def lineLevel (p : Inst) (s : State) : Bool :=
  match p with
  | .ec => requesting s.ec.spiAvail || requesting s.ec.spiEvent || requesting s.ec.spiErr
  | .soc => requesting s.soc.spiInt || requesting s.soc.spiHold

/-- Every source of the instance latched, in ascending index (R122). -/
def latchAll (p : Inst) (s : State) : State :=
  match p with
  | .ec => latchSource .spiErr (latchSource .spiEvent (latchSource .spiAvail s))
  | .soc => latchSource .spiHold (latchSource .spiInt s)

/-- `recompute(P)` (R122). -/
def recompute (p : Inst) (s : State) : State :=
  let t := latchAll p s
  withLine p (lineLevel p t) t

/-- A status driver's input: setStatus, then recompute (R121, R172, R208). -/
def driveStatus (src : Source) (b : Bool) (s : State) : State := recompute (sourceInst src) (setStatus src b s)

end Sys2Proof.Machine
end

