-- ==== Sys2Proof/Machine/TransferEngine.lean ====
section
/-! DEFINITION. The SoC's transfer engine, `send` (42_transfer_engine.md R140). -/

namespace Sys2Proof.Machine

/-- Step T: a raw value above 16 bits is logged (R140, R235). -/
def logTruncation (raw : Word) (s : State) : State :=
  if raw.extractLsb' 16 16 = 0 then s else logSoc (.valueTruncated raw) s

/-- The value sent: the low 16 bits (R140). -/
def sentValue (raw : Word) : Half := raw.setWidth 16

/-- The byte exchanged first (R141). -/
def lowByte (v : Half) : Byte := v.extractLsb' 0 8

/-- The byte exchanged second (R141). -/
def highByte (v : Half) : Byte := v.extractLsb' 8 8

/-- Step X: the two exchanges, low byte first, and the receive value (R141, R144). -/
def exchange (d : Device) (v : Half) (s : State) : Except Refusal State :=
  match devXfer d (lowByte v) (cellWrite .tip 1 s) with
  | .error e => .error e
  | .ok (r0, s1) =>
    match devXfer d (highByte v) s1 with
    | .error e => .error e
    | .ok (r1, s2) => .ok (cellWrite .tip 0 (cellWrite .rx ((r1 ++ r0).setWidth 32) s2))

/-- Step I: the finished-interrupt pulse, when INTENA is 1 (R145). -/
def finishedInterrupt (s : State) : State :=
  if s.soc.intena then setStatus .spiInt false (recompute .soc (setStatus .spiInt true s)) else s

/-- `send(S, raw)` (R140). -/
def send (raw : Word) (s : State) : Except Refusal State :=
  let s := logTruncation raw s
  let v := sentValue raw
  match s.soc.device with
  | none => .ok (logSoc (.noDeviceAttached v) s)
  | some d =>
    if s.soc.autohold && s.soc.holdIn then .ok (logSoc (.holdAsserted v) s)
    else
      match exchange d v s with
      | .error e => .error e
      | .ok t => .ok (finishedInterrupt t)

end Sys2Proof.Machine
end

