-- ==== Sys2Proof/Machine/Operands.lean ====
section
/-! DEFINITION. The operand forms: the field descriptors of every register (40_register_bank.md R100), the field a written word
presents (30_encoding.md R75) and a field's value on a read (R104). -/

namespace Sys2Proof.Machine

/-- Access modes (R12). -/
inductive AccessMode where
  /-- Read-only. -/
  | r
  /-- Write-only. -/
  | w
  /-- Read-write. -/
  | rw
  /-- Read, write-one-to-clear. -/
  | rw1c
  deriving DecidableEq, Repr

/-- A field's callback: run on every write of an rw or w field, on a change of an rw1c field (R100, R105). -/
inductive Callback where
  /-- No callback. -/
  | none
  /-- `recompute(P)`. -/
  | recompute (p : Inst)
  /-- `send(S, wdata)`. -/
  | send
  deriving DecidableEq, Repr

/-- A field descriptor (R100). -/
structure Field where
  /-- Lowest bit. -/
  lsb : Nat
  /-- Width in bits. -/
  width : Nat
  /-- Access mode. -/
  mode : AccessMode
  /-- Backing cell or live provider. -/
  cell : Cell
  /-- Callback. -/
  callback : Callback
  deriving DecidableEq, Repr

/-- A one-bit facet field of an event register at the source's index. -/
def facetField (mode : AccessMode) (f : Facet) (cb : Callback) (src : Source) : Field :=
  ⟨sourceIndex src, 1, mode, .facet src f, cb⟩

/-- A read-only bit of EC Status (R26). -/
def ecstatField (k : Nat) : Field := ⟨k, 1, .r, .ecstat k, .none⟩

/-- A placeholder bit of EC Control (R25). -/
def placeholderField (k : Nat) : Field := ⟨k, 1, .w, .unbacked, .none⟩

/-- The sources of an instance in ascending index (R7). -/
def sources : Inst → List Source
  | .ec => [.spiAvail, .spiEvent, .spiErr]
  | .soc => [.spiInt, .spiHold]

/-- EvStatus (R27, R34). -/
def evStatusFields (p : Inst) : List Field := (sources p).map (facetField .r .status .none)

/-- EvPending (R28, R35): a change recomputes. -/
def evPendingFields (p : Inst) : List Field := (sources p).map (facetField .rw1c .pending (.recompute p))

/-- EvEnable (R29, R36): a write recomputes. -/
def evEnableFields (p : Inst) : List Field := (sources p).map (facetField .rw .enable (.recompute p))

/-- The fields of a mapped register in ascending bit position, `none` at an unmapped offset (R51, R100, R106). -/
def fields (p : Inst) (off : Offset) : Option (List Field) :=
  match p with
  | .ec =>
    if off = 0x000 then some [placeholderField 0, placeholderField 1, placeholderField 2]
    else if off = 0x004 then some (([0, 1, 2, 3, 16, 17, 30, 31] : List Nat).map ecstatField)
    else if off = 0x008 then some (evStatusFields .ec)
    else if off = 0x00C then some (evPendingFields .ec)
    else if off = 0x010 then some (evEnableFields .ec)
    else none
  | .soc =>
    if off = 0x000 then some [⟨0, 16, .w, .unbacked, .send⟩]
    else if off = 0x004 then some [⟨0, 16, .r, .rx, .none⟩]
    else if off = 0x008 then some [⟨0, 1, .rw, .intena, .none⟩, ⟨1, 1, .rw, .autohold, .none⟩]
    else if off = 0x00C then some [⟨0, 1, .r, .tip, .none⟩, ⟨1, 1, .r, .hold, .none⟩]
    else if off = 0x010 then some (evStatusFields .soc)
    else if off = 0x014 then some (evPendingFields .soc)
    else if off = 0x018 then some (evEnableFields .soc)
    else none

/-- What a written word presents to a field: `wdata[lsb + width - 1 : lsb]` (R75, R105). -/
def fieldOperand (f : Field) (wdata : Word) : Word := (wdata.extractLsb' f.lsb f.width).setWidth 32

/-- A field of `p`'s value on a read (R104): the cell or live value; a write-only field follows WO_READ_MODE. -/
def fieldRead (p : Inst) (f : Field) (s : State) : Word × State :=
  match f.mode with
  | .r => (cellRead s f.cell, s)
  | .rw => (cellRead s f.cell, s)
  | .rw1c => (cellRead s f.cell, s)
  | .w =>
    match s.params.woReadMode with
    | .zero => (0, s)
    | .draw => drawBits p f.width s

end Sys2Proof.Machine
end

