-- ==== Sys2Proof/Machine/RegisterBank.lean ====
section
/-! DEFINITION. The generic register bank: BusRead and BusWrite (40_register_bank.md R101-R107). -/

namespace Sys2Proof.Machine

/-- Run a field's callback (R105). -/
def runCallback (cb : Callback) (wdata : Word) (s : State) : Except Refusal State :=
  match cb with
  | .none => .ok s
  | .recompute p => .ok (recompute p s)
  | .send => send wdata s

/-- Apply one field's access semantics to a written word (R105). -/
def fieldWrite (f : Field) (wdata : Word) (s : State) : Except Refusal State :=
  match f.mode with
  | .r => .ok s
  | .rw => runCallback f.callback wdata (cellWrite f.cell (fieldOperand f wdata) s)
  | .w => runCallback f.callback wdata s
  | .rw1c =>
    if fieldOperand f wdata = 1 ∧ cellRead s f.cell = 1 then runCallback f.callback wdata (cellWrite f.cell 0 s)
    else .ok s

/-- The fields of a register, each to completion before the next (R105, R106). -/
def writeFields : List Field → Word → State → Except Refusal State
  | [], _, s => .ok s
  | f :: fs, wdata, s =>
    match fieldWrite f wdata s with
    | .ok t => writeFields fs wdata t
    | .error e => .error e

/-- The value composed of the fields of a register of `p`, reserved bits 0 (R76, R103). -/
def readFields (p : Inst) : List Field → State → Word × State
  | [], s => (0, s)
  | f :: fs, s =>
    let (v, t) := fieldRead p f s
    let (rest, u) := readFields p fs t
    ((v <<< f.lsb) ||| rest, u)

/-- `BusRead(P, off)` (R101, R103). -/
def busRead (p : Inst) (off : Offset) (s : State) : Host.Outcome State Fault Refusal :=
  match fields p off with
  | none => raiseInvalidAddress p .rd off
  | some fs =>
    let (v, t) := readFields p fs s
    complete (.rdata v) t

/-- `BusWrite(P, off, wdata)` (R101, R105). -/
def busWrite (p : Inst) (off : Offset) (wdata : Word) (s : State) : Host.Outcome State Fault Refusal :=
  match fields p off with
  | none => raiseInvalidAddress p .wr off
  | some fs =>
    match writeFields fs wdata s with
    | .ok t => complete .ack t
    | .error e => .refused e

end Sys2Proof.Machine
end

