-- ==== Sys2Proof/Machine/Ec.lean ====
section
/-! DEFINITION. The EC peripheral operations (43_ec_peripheral.md R160-R175), each over the shared operations. -/

namespace Sys2Proof.Machine

/-- EC.RD.CONTROL (R160): offset 0x00. -/
def execEcRdControl (s : State) : Host.Outcome State Fault Refusal :=
  busRead .ec 0x000 s

/-- EC.WR.CONTROL (R161): offset 0x00. -/
def execEcWrControl (wdata : Word) (s : State) : Host.Outcome State Fault Refusal :=
  busWrite .ec 0x000 wdata s

/-- EC.RD.STATUS (R162): offset 0x04. -/
def execEcRdStatus (s : State) : Host.Outcome State Fault Refusal :=
  busRead .ec 0x004 s

/-- EC.WR.STATUS (R163): offset 0x04. -/
def execEcWrStatus (wdata : Word) (s : State) : Host.Outcome State Fault Refusal :=
  busWrite .ec 0x004 wdata s

/-- EC.RD.EVSTATUS (R164): offset 0x08. -/
def execEcRdEvStatus (s : State) : Host.Outcome State Fault Refusal :=
  busRead .ec 0x008 s

/-- EC.WR.EVSTATUS (R165): offset 0x08. -/
def execEcWrEvStatus (wdata : Word) (s : State) : Host.Outcome State Fault Refusal :=
  busWrite .ec 0x008 wdata s

/-- EC.RD.EVPENDING (R166): offset 0x0C. -/
def execEcRdEvPending (s : State) : Host.Outcome State Fault Refusal :=
  busRead .ec 0x00C s

/-- EC.WR.EVPENDING (R167): offset 0x0C. -/
def execEcWrEvPending (wdata : Word) (s : State) : Host.Outcome State Fault Refusal :=
  busWrite .ec 0x00C wdata s

/-- EC.RD.EVENABLE (R168): offset 0x10. -/
def execEcRdEvEnable (s : State) : Host.Outcome State Fault Refusal :=
  busRead .ec 0x010 s

/-- EC.WR.EVENABLE (R169): offset 0x10. -/
def execEcWrEvEnable (wdata : Word) (s : State) : Host.Outcome State Fault Refusal :=
  busWrite .ec 0x010 wdata s

/-- EC.RD.UNMAPPED (R170): InvalidAddress, always. -/
def execEcRdUnmapped (off : Offset) (_s : State) : Host.Outcome State Fault Refusal :=
  raiseInvalidAddress .ec .rd off

/-- EC.WR.UNMAPPED (R171): InvalidAddress, always; the word is discarded. -/
def execEcWrUnmapped (off : Offset) (_wdata : Word) (_s : State) : Host.Outcome State Fault Refusal :=
  raiseInvalidAddress .ec .wr off

/-- EC.RST (R175): `Reset(E)`. -/
def execEcRst (s : State) : Host.Outcome State Fault Refusal :=
  complete .ack (resetInst .ec s)

/-- EC.ENV.SET_STATUS (R172): setStatus and recompute; a source index above 2 is RF_OPERAND. -/
def execEcEnvSetStatus (src : BitVec 2) (b : Bool) (s : State) : Host.Outcome State Fault Refusal :=
  match ecSource src with
  | some x => complete .ack (driveStatus x b s)
  | none => .refused .operand

/-- EC.ENV.XFER (R174): the EC stub answers its sentinel. -/
def execEcEnvXfer (b : Byte) (s : State) : Host.Outcome State Fault Refusal :=
  complete (.byte (ecTransmit s b)) s

/-- EC.ENV.ECSTAT_SET (R173): one Status field, no recompute; another position is RF_OPERAND. -/
def execEcEnvEcstatSet (k : BitVec 5) (b : Bool) (s : State) : Host.Outcome State Fault Refusal :=
  if isEcstatPosition k then complete .ack (cellWrite (.ecstat k.toNat) (bit b) s) else .refused .operand

end Sys2Proof.Machine
end

