-- ==== Sys2Proof/Machine/Soc.lean ====
section
/-! DEFINITION. The SoC peripheral operations (44_soc_peripheral.md R190-R211), each over the shared operations. -/

namespace Sys2Proof.Machine

/-- The hold-line driver's input (R39, R207). -/
def withHold (level : Bool) (s : State) : State := { s with soc := { s.soc with holdIn := level } }

/-- The attachment point (R40, R210, R211). -/
def withDevice (d : Option Device) (s : State) : State := { s with soc := { s.soc with device := d } }

/-- SOC.RD.TX (R190): offset 0x00. -/
def execSocRdTx (s : State) : Host.Outcome State Fault Refusal :=
  busRead .soc 0x000 s

/-- SOC.WR.TX (R191): offset 0x00. -/
def execSocWrTx (wdata : Word) (s : State) : Host.Outcome State Fault Refusal :=
  busWrite .soc 0x000 wdata s

/-- SOC.RD.RX (R192): offset 0x04. -/
def execSocRdRx (s : State) : Host.Outcome State Fault Refusal :=
  busRead .soc 0x004 s

/-- SOC.WR.RX (R193): offset 0x04. -/
def execSocWrRx (wdata : Word) (s : State) : Host.Outcome State Fault Refusal :=
  busWrite .soc 0x004 wdata s

/-- SOC.RD.CONTROL (R194): offset 0x08. -/
def execSocRdControl (s : State) : Host.Outcome State Fault Refusal :=
  busRead .soc 0x008 s

/-- SOC.WR.CONTROL (R195): offset 0x08. -/
def execSocWrControl (wdata : Word) (s : State) : Host.Outcome State Fault Refusal :=
  busWrite .soc 0x008 wdata s

/-- SOC.RD.STATUS (R196): offset 0x0C. -/
def execSocRdStatus (s : State) : Host.Outcome State Fault Refusal :=
  busRead .soc 0x00C s

/-- SOC.WR.STATUS (R197): offset 0x0C. -/
def execSocWrStatus (wdata : Word) (s : State) : Host.Outcome State Fault Refusal :=
  busWrite .soc 0x00C wdata s

/-- SOC.RD.EVSTATUS (R198): offset 0x10. -/
def execSocRdEvStatus (s : State) : Host.Outcome State Fault Refusal :=
  busRead .soc 0x010 s

/-- SOC.WR.EVSTATUS (R199): offset 0x10. -/
def execSocWrEvStatus (wdata : Word) (s : State) : Host.Outcome State Fault Refusal :=
  busWrite .soc 0x010 wdata s

/-- SOC.RD.EVPENDING (R200): offset 0x14. -/
def execSocRdEvPending (s : State) : Host.Outcome State Fault Refusal :=
  busRead .soc 0x014 s

/-- SOC.WR.EVPENDING (R201): offset 0x14. -/
def execSocWrEvPending (wdata : Word) (s : State) : Host.Outcome State Fault Refusal :=
  busWrite .soc 0x014 wdata s

/-- SOC.RD.EVENABLE (R202): offset 0x18. -/
def execSocRdEvEnable (s : State) : Host.Outcome State Fault Refusal :=
  busRead .soc 0x018 s

/-- SOC.WR.EVENABLE (R203): offset 0x18. -/
def execSocWrEvEnable (wdata : Word) (s : State) : Host.Outcome State Fault Refusal :=
  busWrite .soc 0x018 wdata s

/-- SOC.RD.UNMAPPED (R204): InvalidAddress, always. -/
def execSocRdUnmapped (off : Offset) (_s : State) : Host.Outcome State Fault Refusal :=
  raiseInvalidAddress .soc .rd off

/-- SOC.WR.UNMAPPED (R205): InvalidAddress, always; no transfer starts. -/
def execSocWrUnmapped (off : Offset) (_wdata : Word) (_s : State) : Host.Outcome State Fault Refusal :=
  raiseInvalidAddress .soc .wr off

/-- SOC.RST (R206): `Reset(S)`. -/
def execSocRst (s : State) : Host.Outcome State Fault Refusal :=
  complete .ack (resetInst .soc s)

/-- SOC.ENV.HOLD_SET (R207): the hold input; in Coupled mode SPI_HOLD status follows it (R209). -/
def execSocEnvHoldSet (level : Bool) (s : State) : Host.Outcome State Fault Refusal :=
  match s.params.holdStatusMode with
  | .environment => complete .ack (withHold level s)
  | .coupled => complete .ack (driveStatus .spiHold level (withHold level s))

/-- SOC.ENV.SET_STATUS (R208): SPI_HOLD status, only in Environment mode. -/
def execSocEnvSetStatus (b : Bool) (s : State) : Host.Outcome State Fault Refusal :=
  match s.params.holdStatusMode with
  | .environment => complete .ack (driveStatus .spiHold b s)
  | .coupled => .refused .selector

/-- SOC.ENV.ATTACH (R210): the device takes the attachment point. -/
def execSocEnvAttach (d : Device) (s : State) : Host.Outcome State Fault Refusal :=
  complete .ack (withDevice (some d) s)

/-- SOC.ENV.DETACH (R211): the attachment point is empty. -/
def execSocEnvDetach (s : State) : Host.Outcome State Fault Refusal :=
  complete .ack (withDevice none s)

end Sys2Proof.Machine
end

