-- ==== Sys2Proof/Machine/Dispatch.lean ====
section
/-! DEFINITION. Which meaning each operation has: one arm per constructor of Instr (spec/opcode_table.json). -/

namespace Sys2Proof.Machine

/-- The meaning of one operation. -/
def exec (i : Instr) (s : State) : Host.Outcome State Fault Refusal :=
  match i with
  | .ecRdControl => Sys2Proof.Machine.execEcRdControl s
  | .ecWrControl wdata => Sys2Proof.Machine.execEcWrControl wdata s
  | .ecRdStatus => Sys2Proof.Machine.execEcRdStatus s
  | .ecWrStatus wdata => Sys2Proof.Machine.execEcWrStatus wdata s
  | .ecRdEvStatus => Sys2Proof.Machine.execEcRdEvStatus s
  | .ecWrEvStatus wdata => Sys2Proof.Machine.execEcWrEvStatus wdata s
  | .ecRdEvPending => Sys2Proof.Machine.execEcRdEvPending s
  | .ecWrEvPending wdata => Sys2Proof.Machine.execEcWrEvPending wdata s
  | .ecRdEvEnable => Sys2Proof.Machine.execEcRdEvEnable s
  | .ecWrEvEnable wdata => Sys2Proof.Machine.execEcWrEvEnable wdata s
  | .ecRdUnmapped off => Sys2Proof.Machine.execEcRdUnmapped off s
  | .ecWrUnmapped off wdata => Sys2Proof.Machine.execEcWrUnmapped off wdata s
  | .ecRst => Sys2Proof.Machine.execEcRst s
  | .ecEnvSetStatus src b => Sys2Proof.Machine.execEcEnvSetStatus src b s
  | .ecEnvXfer b => Sys2Proof.Machine.execEcEnvXfer b s
  | .ecEnvEcstatSet k b => Sys2Proof.Machine.execEcEnvEcstatSet k b s
  | .socRdTx => Sys2Proof.Machine.execSocRdTx s
  | .socWrTx wdata => Sys2Proof.Machine.execSocWrTx wdata s
  | .socRdRx => Sys2Proof.Machine.execSocRdRx s
  | .socWrRx wdata => Sys2Proof.Machine.execSocWrRx wdata s
  | .socRdControl => Sys2Proof.Machine.execSocRdControl s
  | .socWrControl wdata => Sys2Proof.Machine.execSocWrControl wdata s
  | .socRdStatus => Sys2Proof.Machine.execSocRdStatus s
  | .socWrStatus wdata => Sys2Proof.Machine.execSocWrStatus wdata s
  | .socRdEvStatus => Sys2Proof.Machine.execSocRdEvStatus s
  | .socWrEvStatus wdata => Sys2Proof.Machine.execSocWrEvStatus wdata s
  | .socRdEvPending => Sys2Proof.Machine.execSocRdEvPending s
  | .socWrEvPending wdata => Sys2Proof.Machine.execSocWrEvPending wdata s
  | .socRdEvEnable => Sys2Proof.Machine.execSocRdEvEnable s
  | .socWrEvEnable wdata => Sys2Proof.Machine.execSocWrEvEnable wdata s
  | .socRdUnmapped off => Sys2Proof.Machine.execSocRdUnmapped off s
  | .socWrUnmapped off wdata => Sys2Proof.Machine.execSocWrUnmapped off wdata s
  | .socRst => Sys2Proof.Machine.execSocRst s
  | .socEnvHoldSet level => Sys2Proof.Machine.execSocEnvHoldSet level s
  | .socEnvSetStatus b => Sys2Proof.Machine.execSocEnvSetStatus b s
  | .socEnvAttach d => Sys2Proof.Machine.execSocEnvAttach d s
  | .socEnvDetach => Sys2Proof.Machine.execSocEnvDetach s

end Sys2Proof.Machine
end

