-- ==== Sys2Proof/Machine/Step.lean ====
section
/-! DEFINITION. One step: the operation at the head of the queue is taken, decoded and run to completion (30_encoding.md R70,
20_memory.md R58, R62). -/

namespace Sys2Proof.Machine

/-- One step (R70). Where the environment offers no operation the machine stays as it is (R248, log 1). -/
def step (s : State) : Host.Outcome State Fault Refusal :=
  match fetch s with
  | none => .next s
  | some (.error e) => .refused (refusalOf e)
  | some (.ok i) => exec i (takeRequest s)

/-- `s` with the operation of a table word as the next one the environment offers (log 10). -/
def State.withFetchWord (s : State) (_nbits w : Nat) : State := placeRequest (.op (tableRecord w)) s

end Sys2Proof.Machine
end

