-- ==== Sys2Proof/Safety.lean ====
section
/-! DEFINITION. The terms the claims are stated in: the state invariant of 10_state.md R45, runs of operations, and the words
and reads the register layouts give. -/

namespace Sys2Proof.Machine

/-- A source whose status and enable are 1 is pending: I1 of R45 for one source. -/
abbrev Latched (e : EventSource) : Prop := e.status = true → e.enable = true → e.pending = true

/-- I1 for the EC (R45). -/
abbrev EcLatched (s : State) : Prop := Latched s.ec.spiAvail ∧ Latched s.ec.spiEvent ∧ Latched s.ec.spiErr

/-- I1 for the SoC (R45). -/
abbrev SocLatched (s : State) : Prop := Latched s.soc.spiInt ∧ Latched s.soc.spiHold

/-- R37's OR for the EC, spelled out over its three sources: the claims do not read the level off the model's own operations. -/
def ecRequests (s : State) : Bool :=
  (s.ec.spiAvail.pending && s.ec.spiAvail.enable) || (s.ec.spiEvent.pending && s.ec.spiEvent.enable) ||
    (s.ec.spiErr.pending && s.ec.spiErr.enable)

/-- R37's OR for the SoC, spelled out over its two sources. -/
def socRequests (s : State) : Bool :=
  (s.soc.spiInt.pending && s.soc.spiInt.enable) || (s.soc.spiHold.pending && s.soc.spiHold.enable)

/-- I2 of R45: each line is the OR of pending and enable over its sources. -/
abbrev LinesFollow (s : State) : Prop := s.ec.line = ecRequests s ∧ s.soc.line = socRequests s

/-- I3 of R45: no transfer in progress and the SPI_INT pulse low. -/
abbrev EngineIdle (s : State) : Prop := s.soc.tip = false ∧ s.soc.spiInt.status = false

/-- The mask of the eight EC Status fields (R26). -/
def ecstatMask : Word := 0xC003000F

/-- Only the eight Status bits of `E.ecstat` can be 1 (R22). -/
abbrev EcstatReserved (s : State) : Prop := s.ec.ecstat &&& ~~~ecstatMask = 0

/-- The invariant between operations (R45), with the reserved bits of R22. -/
structure Invariant (s : State) : Prop where
  /-- I1 on the EC. -/
  ecLatched : EcLatched s
  /-- I1 on the SoC. -/
  socLatched : SocLatched s
  /-- I2. -/
  lines : LinesFollow s
  /-- I3. -/
  idle : EngineIdle s
  /-- R22's reserved bits. -/
  ecstat : EcstatReserved s

/-- Bits 2:0 of an EC event register: `f[2] ++ f[1] ++ f[0]`, zero extended (R76). -/
def bits3 (b0 b1 b2 : Bool) : Word := (BitVec.ofBool b2 ++ BitVec.ofBool b1 ++ BitVec.ofBool b0).setWidth 32

/-- Bits 1:0 of a SoC register: `f[1] ++ f[0]`, zero extended (R76). -/
def bits2 (b0 b1 : Bool) : Word := (BitVec.ofBool b1 ++ BitVec.ofBool b0).setWidth 32

/-- The facets of the EC's three sources (R24). -/
def withEcSources (a b c : EventSource) (s : State) : State :=
  { s with ec := { s.ec with spiAvail := a, spiEvent := b, spiErr := c } }

/-- The facets of the SoC's two sources (R24). -/
def withSocSources (a b : EventSource) (s : State) : State :=
  { s with soc := { s.soc with spiInt := a, spiHold := b } }

/-- One source after its pending bit met a clear mask bit, by R106's formula: cleared where the mask bit is 1, unless status and
enable hold it. -/
def acknowledged (c : Bool) (e : EventSource) : EventSource :=
  { e with pending := if c then e.status && e.enable else e.pending }

/-- One source after its enable bit was written, by R125 and R126: pending is kept, and latched where status and the new enable
are 1. -/
def masked (b : Bool) (e : EventSource) : EventSource :=
  { e with enable := b, pending := e.pending || (e.status && b) }

/-- One source after its status was driven and recomputed (R120, R122). -/
def driven (b : Bool) (e : EventSource) : EventSource :=
  { e with status := b, pending := e.pending || (b && e.enable) }

/-- The line of the EC as its facets give it. -/
def settleEc (s : State) : State := { s with ec := { s.ec with line := ecRequests s } }

/-- The line of the SoC as its facets give it. -/
def settleSoc (s : State) : State := { s with soc := { s.soc with line := socRequests s } }

/-- Operations one after another, stopping at the first fault or refusal (R62). -/
def execAll : List Instr → State → Host.Outcome State Fault Refusal
  | [], s => .next s
  | i :: is, s =>
    match exec i s with
    | .next t => execAll is t
    | .fault f => .fault f
    | .refused r => .refused r

/-- The operation is a read of a mapped register (R103). -/
def isMappedRead (i : Instr) : Bool := i.kind == .rd && WellFormed i && mapped i.inst (selOff (encode i).sel)

/-- What the outside can tell of the machine: the two instances. The parameters, the queue, the counters and the last answer are
left out. -/
def instances (s : State) : EcState × SocState := (s.ec, s.soc)

/-- The state with HOLD_STATUS_MODE set. -/
def withMode (m : HoldStatusMode) (s : State) : State := { s with params := { s.params with holdStatusMode := m } }

/-- How a Coupled-mode operation is issued in Environment mode (R209): HOLD_SET, then the status change as a separate step. -/
def inEnvironment : Instr → List Instr
  | .socEnvHoldSet l => [.socEnvHoldSet l, .socEnvSetStatus l]
  | i => [i]

/-- A transfer would run: a device is attached and hold does not block it (R142, R143). -/
def transferRuns (s : State) : Bool := s.soc.device.isSome && !(s.soc.autohold && s.soc.holdIn)

/-- What a Tx write's truncation step logs (R140, R235). -/
def truncationLog (raw : Word) : List Diagnostic := if raw.toNat ≤ 0xFFFF then [] else [.valueTruncated raw]

/-- What a Tx write's precondition check logs: one entry where it aborts, none where the transfer runs (R142, R143). -/
def abortLog (v : Half) (s : State) : List Diagnostic :=
  match s.soc.device with
  | none => [.noDeviceAttached v]
  | some _ => if s.soc.autohold && s.soc.holdIn then [.holdAsserted v] else []

/-- A device of R59 answers bytes to an exchange; the re-entering one of R237 does not. -/
def answers (d : Device) : Bool := d != .reentrant

/-- The byte a named device answers (R59); `none` for a device whose answer the model leaves free. -/
def namedAnswer (s : State) (d : Device) (b : Byte) : Option Byte :=
  match d with
  | .echo1 => some (BitVec.ofNat 8 (b.toNat + 1))
  | .ecStub => some s.params.ecSentinel
  | .unknown => none
  | .reentrant => none

/-- The operation's answer has the kind its row gives it: a word for RD, a byte for XFER, otherwise an acknowledgment (R70). -/
def answersInKind (i : Instr) (r : Response) : Prop :=
  match i with
  | .ecEnvXfer _ => ∃ b, r = .byte b
  | _ => if i.kind = .rd then ∃ w, r = .rdata w else r = .ack

/-- A write of EvPending to the instance with bit `n` of the word 1 (R123). -/
def acknowledges (p : Inst) (n : Nat) (i : Instr) : Prop := ∃ m : Word, i = Instr.ack p m ∧ m.getLsbD n = true

/-- The reset operation of an instance (R73). -/
def resetOf : Inst → Instr
  | .ec => .ecRst
  | .soc => .socRst

/-- The bus master's view of one step: a fault leaves the machine for the next operation, a refusal does not step (R102, R237). -/
def masterStep (s : State) : State :=
  match step s with
  | .next t => t
  | .fault _ => afterFault s
  | .refused _ => s

end Sys2Proof.Machine
end

