-- ==== Sys2Proof/Certificates/Slice0/Obligations.lean ====
section
/-! DEFINITION. What is claimed of the model, one statement per definition; OBLIGATIONS.json lists them. -/

open Sys2Proof Sys2Proof.Machine

/-! Encoding -/

/-- Selector words written out from R71 and R74 decode to the operations they stand for. The packing is the spec's own choice
(30_encoding.md, decision D4). -/
def Obligations.OperationWordsDecode : Prop :=
  decode .environment ⟨.ec, 0b00000000000100, 0⟩ = .ok .ecRdStatus ∧
  decode .environment ⟨.ec, 0b01000000010000, 5⟩ = .ok (.ecWrEvEnable 5) ∧
  decode .environment ⟨.ec, 0b10000000000000, 0⟩ = .ok .ecRst ∧
  decode .environment ⟨.ec, 0b11000100000010, 1⟩ = .ok (.ecEnvSetStatus 2 true) ∧
  decode .environment ⟨.ec, 0b11010000011111, 1⟩ = .ok (.ecEnvEcstatSet 31 true) ∧
  decode .environment ⟨.soc, 0b01000000000000, 0x1234⟩ = .ok (.socWrTx 0x1234) ∧
  decode .environment ⟨.soc, 0b11000000000000, 1⟩ = .ok (.socEnvHoldSet true) ∧
  decode .environment ⟨.soc, 0b11000100000001, 1⟩ = .ok (.socEnvSetStatus true) ∧
  decode .coupled ⟨.soc, 0b11000100000001, 1⟩ = .error .selector ∧
  decode .environment ⟨.soc, 0b11001000000001, 0⟩ = .ok .socEnvDetach

/-- Every well-formed operation the mode offers is what its own record decodes to, with every operand at every value. -/
def Obligations.DecodeOfEncode : Prop :=
  ∀ (mode : HoldStatusMode) (i : Instr), WellFormed i = true → i.offered mode = true → decode mode (encode i) = .ok i

/-- What the decoder answers is well formed, is offered by the mode, and spells the record's instance and selector; a write
keeps its word. -/
def Obligations.DecodedSpellsItsRecord : Prop :=
  ∀ (mode : HoldStatusMode) (r : OpRecord) (i : Instr), decode mode r = .ok i →
    WellFormed i = true ∧ i.offered mode = true ∧ (encode i).inst = r.inst ∧ (encode i).sel = r.sel ∧
    (i.kind = .wr → (encode i).operand = r.operand)

/-- No bus access inside the window is refused by the decoder (30_encoding.md section 3, decision D4). -/
def Obligations.BusAccessAlwaysDecodes : Prop :=
  ∀ (mode : HoldStatusMode) (p : Inst) (d : Dir) (off : Offset) (w : Word),
    ∃ i, decode mode ⟨p, accessSelector d off, w⟩ = .ok i ∧ i.inst = p ∧ (encode i).sel = accessSelector d off

/-- Reserved selectors are refused RF_SELECTOR: a reset with a nonzero offset, an environment offset outside the ranges of the
instance's rows, and SPI_HOLD status in Coupled mode (the spec's own choice, decisions D4 and D32). The EC's ranges are 0x100 to
0x103 and 0x400 to 0x41F: that an offset inside them that names no source or no Status field (0x103, the 24 positions of no field)
is RF_OPERAND and the first one beyond (0x104, 0x420) RF_SELECTOR is the model's reading, log 14 (DEDUCED). -/
def Obligations.ReservedSelectorsRefused : Prop :=
  ∀ (mode : HoldStatusMode) (off : Offset) (w : Word),
    (∀ p, off ≠ 0 → decode mode ⟨p, selector .rst off, w⟩ = .error .selector) ∧
    ((∀ n : Nat, n < 4 → off.toNat ≠ 0x100 + n) → off.toNat ≠ 0x300 → (∀ n : Nat, n < 32 → off.toNat ≠ 0x400 + n) →
      decode mode ⟨.ec, selector .env off, w⟩ = .error .selector) ∧
    (off ≠ 0 → off ≠ 0x101 → off ≠ 0x200 → off ≠ 0x201 →
      decode mode ⟨.soc, selector .env off, w⟩ = .error .selector) ∧
    decode .coupled ⟨.soc, selector .env 0x101, w⟩ = .error .selector

/-- Environment operands out of range are refused RF_OPERAND (the spec's own choice, decision D32). The byte above 255 and the
device codes are the model's choices, logs 16 and 8; that 0x103 and the 24 positions of no Status field are RF_OPERAND, not
RF_SELECTOR, is the model's reading, log 14 (DEDUCED). -/
def Obligations.OperandsOutOfRangeRefused : Prop :=
  ∀ (mode : HoldStatusMode) (w : Word),
    (1 < w.toNat →
      (∀ src : BitVec 2, decode mode ⟨.ec, selector .env (0x100 ||| src.setWidth 12), w⟩ = .error .operand) ∧
      (∀ k : BitVec 5, decode mode ⟨.ec, selector .env (0x400 ||| k.setWidth 12), w⟩ = .error .operand) ∧
      decode mode ⟨.soc, selector .env 0x000, w⟩ = .error .operand ∧
      decode .environment ⟨.soc, selector .env 0x101, w⟩ = .error .operand) ∧
    decode mode ⟨.ec, selector .env 0x103, w⟩ = .error .operand ∧
    (∀ k : BitVec 5, isEcstatPosition k = false →
      decode mode ⟨.ec, selector .env (0x400 ||| k.setWidth 12), w⟩ = .error .operand) ∧
    (0xFF < w.toNat → decode mode ⟨.ec, selector .env 0x300, w⟩ = .error .operand) ∧
    (3 < w.toNat → decode mode ⟨.soc, selector .env 0x200, w⟩ = .error .operand)

/-! The step -/

/-- A step takes the operation at the head of the queue, counts it, and is `exec` of what its record decodes to; a record that
spells none is refused with the decoder's reason, and an empty queue leaves the machine as it is (the queue is the model's own, log 1). -/
def Obligations.StepRunsDecodedOperation : Prop :=
  ∀ (s : State),
    (∀ r rest i, s.requests = .op r :: rest → decode s.params.holdStatusMode r = .ok i →
      step s = exec i { s with requests := rest, count := s.count + 1 }) ∧
    (∀ r rest e, s.requests = .op r :: rest → decode s.params.holdStatusMode r = .error e →
      step s = .refused (refusalOf e)) ∧
    (∀ r rest, s.requests = .op r :: rest → decode s.params.holdStatusMode r = .error .selector →
      step s = .refused .selector) ∧
    (∀ r rest, s.requests = .op r :: rest → decode s.params.holdStatusMode r = .error .operand →
      step s = .refused .operand) ∧
    (s.requests = [] → step s = .next s)

/-- A bus access of 4 bytes inside the window steps as the record of that access; outside the window it is refused RF_WINDOW, and
of another size RF_WIDTH (the spec's own choices, decisions D5 and D6; both at once is the model's choice of log 11, a wrong size at
an unmapped or misaligned offset that of log 23). -/
def Obligations.BusAccessSteps : Prop :=
  ∀ (s : State) (p : Inst) (d : Dir) (off size : Nat) (w : Word) (rest : List Request),
    s.requests = .access p d off size w :: rest →
    (off < 0x1000 → size = 4 →
      step s = step { s with requests := .op ⟨p, (match d with | .rd => 0b00#2 | .wr => 0b01#2) ++ BitVec.ofNat 12 off, w⟩ :: rest }) ∧
    (0x1000 ≤ off → step s = .refused .window) ∧
    (off < 0x1000 → size ≠ 4 → step s = .refused .width)

/-- Where the two windows do not overlap, an access at system address `BASE + off` is the access at `off` of that instance: it
reads as the same record, and a step that takes it is the step that takes the access at the window (the bases are open, decision
D2; log 2). That an access at an address in neither window, whatever its size, is refused RF_WINDOW is the model's DESIGN CHOICE
of log 11; the queue is the model's own, log 1. -/
def Obligations.SystemAddressReachesWindow : Prop :=
  ∀ (s : State) (d : Dir) (off size addr : Nat) (w : Word) (rest : List Request), disjointWindows s.params = true →
    (off < 0x1000 →
      (Request.mem d (s.params.baseEc + off) size w).resolve s.params = (Request.access .ec d off size w).resolve s.params ∧
      (Request.mem d (s.params.baseSoc + off) size w).resolve s.params = (Request.access .soc d off size w).resolve s.params ∧
      (s.requests = .mem d (s.params.baseEc + off) size w :: rest →
        step s = step { s with requests := .access .ec d off size w :: rest }) ∧
      (s.requests = .mem d (s.params.baseSoc + off) size w :: rest →
        step s = step { s with requests := .access .soc d off size w :: rest })) ∧
    (addr < s.params.baseEc ∨ s.params.baseEc + 0x1000 ≤ addr → addr < s.params.baseSoc ∨ s.params.baseSoc + 0x1000 ≤ addr →
      (Request.mem d addr size w).resolve s.params = .error .window ∧
      (s.requests = .mem d addr size w :: rest → step s = .refused .window))

/-! Faults -/

/-- Accesses at unmapped offsets decode to the unmapped rows, misaligned offsets are among them, and the operation always
faults with the direction, the offset and the instance. -/
def Obligations.UnmappedAccessesFault : Prop :=
  (∀ off : Offset, off.toNat % 4 ≠ 0 → mapped .ec off = false ∧ mapped .soc off = false) ∧
  (∀ (mode : HoldStatusMode) (off : Offset) (w : Word), mapped .ec off = false →
    decode mode ⟨.ec, 0x0000 ||| off.setWidth 14, w⟩ = .ok (.ecRdUnmapped off) ∧
    decode mode ⟨.ec, 0x1000 ||| off.setWidth 14, w⟩ = .ok (.ecWrUnmapped off w)) ∧
  (∀ (mode : HoldStatusMode) (off : Offset) (w : Word), mapped .soc off = false →
    decode mode ⟨.soc, 0x0000 ||| off.setWidth 14, w⟩ = .ok (.socRdUnmapped off) ∧
    decode mode ⟨.soc, 0x1000 ||| off.setWidth 14, w⟩ = .ok (.socWrUnmapped off w)) ∧
  (∀ (off : Offset) (w : Word) (s : State),
    exec (.ecRdUnmapped off) s = .fault (.invalidAddress .ec .rd off) ∧
    exec (.ecWrUnmapped off w) s = .fault (.invalidAddress .ec .wr off) ∧
    exec (.socRdUnmapped off) s = .fault (.invalidAddress .soc .rd off) ∧
    exec (.socWrUnmapped off w) s = .fault (.invalidAddress .soc .wr off))

/-- The register bank's offset decode faults exactly at the offsets of no register (R51, R101). -/
def Obligations.BankFaultsExactlyWhenUnmapped : Prop :=
  ∀ (p : Inst) (off : Offset) (w : Word) (s : State),
    (busRead p off s = .fault (.invalidAddress p .rd off) ↔ mapped p off = false) ∧
    (busWrite p off w s = .fault (.invalidAddress p .wr off) ↔ mapped p off = false)

/-- No operation but an access at an unmapped offset faults. -/
def Obligations.OnlyUnmappedAccessesFault : Prop :=
  ∀ (i : Instr) (s : State) (f : Fault), WellFormed i = true → exec i s = .fault f →
    (i.kind = .rd ∨ i.kind = .wr) ∧ mapped i.inst (selOff (encode i).sel) = false

/-- After a fault the bus master goes on from the unchanged instances; only the queue and the count have moved, and nothing is
returned (the state after a fault is the spec's decision D7; the way the run goes on is log 13). -/
def Obligations.FaultLeavesMachineUnchanged : Prop :=
  ∀ (s : State) (f : Fault), step s = .fault f →
    masterStep s = { s with requests := s.requests.tail, count := s.count + 1, result := .none }

/-- Every well-formed operation the mode offers, but an access at an unmapped offset, completes and returns what its row returns;
a Tx write on the one condition that no re-entering device is exchanged with. -/
def Obligations.OtherOperationsComplete : Prop :=
  ∀ (i : Instr) (s : State), WellFormed i = true → i.offered s.params.holdStatusMode = true →
    ((i.kind = .rd ∨ i.kind = .wr) → mapped i.inst (selOff (encode i).sel) = true) →
    ((∃ w, i = .socWrTx w) → transferRuns s = true → s.soc.device ≠ some .reentrant) →
    ∃ t, exec i s = .next t ∧ answersInKind i t.result

/-! Registers: reads -/

/-- A read of a write-only field returns some value of the field's width, the reserved bits 0, and changes nothing of the
machine; under WO_READ_MODE = Zero the value is 0 (the spec's decision D8; the draw is log 5). -/
def Obligations.WriteOnlyReads : Prop :=
  ∀ s : State,
    (∃ (w : BitVec 3) (n : Nat), exec .ecRdControl s = .next { s with draws := { s.draws with ec := n }, result := .rdata (w.setWidth 32) } ∧
      (s.params.woReadMode = .zero → w = 0 ∧ n = s.draws.ec)) ∧
    (∃ (w : BitVec 16) (n : Nat), exec .socRdTx s = .next { s with draws := { s.draws with soc := n }, result := .rdata (w.setWidth 32) } ∧
      (s.params.woReadMode = .zero → w = 0 ∧ n = s.draws.soc))

/-- EC Status reads its eight fields (who drives them is the spec's decision D12). -/
def Obligations.EcStatusRead : Prop :=
  encode .ecRdStatus = ⟨.ec, 0x0004, 0⟩ ∧
  ∀ s : State, exec .ecRdStatus s = .next { s with result := .rdata (s.ec.ecstat &&& 0xC003000F) }

/-- The EC event registers read their facets and change nothing; the enable mask reads back what was written in bits 2:0. -/
def Obligations.EcEventReads : Prop :=
  encode .ecRdEvStatus = ⟨.ec, 0x0008, 0⟩ ∧
  encode .ecRdEvPending = ⟨.ec, 0x000C, 0⟩ ∧
  encode .ecRdEvEnable = ⟨.ec, 0x0010, 0⟩ ∧
  (∀ s : State,
    exec .ecRdEvStatus s =
      .next { s with result := .rdata (bits3 s.ec.spiAvail.status s.ec.spiEvent.status s.ec.spiErr.status) } ∧
    exec .ecRdEvPending s =
      .next { s with result := .rdata (bits3 s.ec.spiAvail.pending s.ec.spiEvent.pending s.ec.spiErr.pending) } ∧
    exec .ecRdEvEnable s =
      .next { s with result := .rdata (bits3 s.ec.spiAvail.enable s.ec.spiEvent.enable s.ec.spiErr.enable) }) ∧
  (∀ (w : Word) (s : State),
    ∃ t, execAll [.ecWrEvEnable w, .ecRdEvEnable] s = .next t ∧ t.result = .rdata (w &&& 0x7))

/-- Rx, Control, Status, EvStatus, EvPending and EvEnable of the SoC read their fields and change nothing; Rx is 0 after a reset and
keeps its value over an aborted transfer; HOLD is live, TIP reads 0 between operations. -/
def Obligations.SocRegisterReads : Prop :=
  encode .socRdRx = ⟨.soc, 0x0004, 0⟩ ∧
  encode .socRdControl = ⟨.soc, 0x0008, 0⟩ ∧
  encode .socRdStatus = ⟨.soc, 0x000C, 0⟩ ∧
  encode .socRdEvStatus = ⟨.soc, 0x0010, 0⟩ ∧
  encode .socRdEvPending = ⟨.soc, 0x0014, 0⟩ ∧
  encode .socRdEvEnable = ⟨.soc, 0x0018, 0⟩ ∧
  (∀ s : State,
    exec .socRdRx s = .next { s with result := .rdata (s.soc.rx.setWidth 32) } ∧
    exec .socRdControl s = .next { s with result := .rdata (bits2 s.soc.intena s.soc.autohold) } ∧
    exec .socRdStatus s = .next { s with result := .rdata (bits2 s.soc.tip s.soc.holdIn) } ∧
    exec .socRdEvStatus s = .next { s with result := .rdata (bits2 s.soc.spiInt.status s.soc.spiHold.status) } ∧
    exec .socRdEvPending s = .next { s with result := .rdata (bits2 s.soc.spiInt.pending s.soc.spiHold.pending) } ∧
    exec .socRdEvEnable s = .next { s with result := .rdata (bits2 s.soc.spiInt.enable s.soc.spiHold.enable) }) ∧
  (∀ (w : Word) (s : State),
    (∃ t, execAll [.socWrControl w, .socRdControl] s = .next t ∧ t.result = .rdata (w &&& 0x3)) ∧
    (∃ t, execAll [.socWrEvEnable w, .socRdEvEnable] s = .next t ∧ t.result = .rdata (w &&& 0x3))) ∧
  (∀ s : State, Invariant s → exec .socRdStatus s = .next { s with result := .rdata (bits2 false s.soc.holdIn) }) ∧
  (∀ s : State, ∃ t, execAll [.socRst, .socRdStatus] s = .next t ∧ t.result = .rdata (bits2 false s.soc.holdIn)) ∧
  (∀ s : State, ∃ t, execAll [.socRst, .socRdRx] s = .next t ∧ t.result = .rdata 0) ∧
  (∀ (w : Word) (s : State), transferRuns s = false →
    ∃ t, execAll [.socWrTx w, .socRdRx] s = .next t ∧ t.result = .rdata (s.soc.rx.setWidth 32))

/-- A read of a mapped register completes and changes neither instance; only a drawn value moves the model's own count of
that instance's draws (log 5). -/
def Obligations.ReadsChangeNoInstance : Prop :=
  ∀ (i : Instr) (s : State), isMappedRead i = true →
    ∃ w d, exec i s = .next { s with draws := d, result := .rdata w } ∧ d.device = s.draws.device ∧
      (i.inst = .ec → d.soc = s.draws.soc) ∧ (i.inst = .soc → d.ec = s.draws.ec)

/-! Registers: writes -/

/-- Writes to read-only registers change nothing, and the register reads as before. -/
def Obligations.ReadOnlyWritesIgnored : Prop :=
  ∀ (w : Word) (s : State),
    encode (.ecWrStatus w) = ⟨.ec, 0x1004, w⟩ ∧ exec (.ecWrStatus w) s = .next { s with result := .ack } ∧
    execAll [.ecWrStatus w, .ecRdStatus] s = exec .ecRdStatus s ∧
    encode (.ecWrEvStatus w) = ⟨.ec, 0x1008, w⟩ ∧ exec (.ecWrEvStatus w) s = .next { s with result := .ack } ∧
    encode (.socWrRx w) = ⟨.soc, 0x1004, w⟩ ∧ exec (.socWrRx w) s = .next { s with result := .ack } ∧
    execAll [.socWrRx w, .socRdRx] s = exec .socRdRx s ∧
    encode (.socWrStatus w) = ⟨.soc, 0x100C, w⟩ ∧ exec (.socWrStatus w) s = .next { s with result := .ack } ∧
    encode (.socWrEvStatus w) = ⟨.soc, 0x1010, w⟩ ∧ exec (.socWrEvStatus w) s = .next { s with result := .ack }

/-- A write to EC Control does nothing, whatever its bits (the spec's decision D28). -/
def Obligations.EcControlWriteDoesNothing : Prop :=
  ∀ (w : Word) (s : State),
    encode (.ecWrControl w) = ⟨.ec, 0x1000, w⟩ ∧ exec (.ecWrControl w) s = .next { s with result := .ack }

/-- A write to SoC Control stores INTENA and AUTOHOLD and changes nothing else. -/
def Obligations.SocControlWrite : Prop :=
  ∀ (w : Word) (s : State),
    encode (.socWrControl w) = ⟨.soc, 0x1008, w⟩ ∧
    exec (.socWrControl w) s = .next
      { s with soc := { s.soc with intena := w.getLsbD 0, autohold := w.getLsbD 1 }, result := .ack }

/-- Acknowledging on the EC: each pending bit whose mask bit is 1 falls, unless its status and enable hold it; the line follows;
nothing else changes. Stated between operations (the invariant of 10_state.md section 7). -/
def Obligations.EcAcknowledge : Prop :=
  ∀ (w : Word) (s : State), Invariant s →
    encode (.ecWrEvPending w) = ⟨.ec, 0x100C, w⟩ ∧
    exec (.ecWrEvPending w) s = .next (respond .ack (settleEc (withEcSources
      (acknowledged (w.getLsbD 0) s.ec.spiAvail) (acknowledged (w.getLsbD 1) s.ec.spiEvent)
      (acknowledged (w.getLsbD 2) s.ec.spiErr) s)))

/-- Acknowledging on the SoC, likewise; SPI_INT never re-latches, since its status is 0 between operations. -/
def Obligations.SocAcknowledge : Prop :=
  ∀ (w : Word) (s : State), Invariant s →
    encode (.socWrEvPending w) = ⟨.soc, 0x1014, w⟩ ∧
    exec (.socWrEvPending w) s = .next (respond .ack (settleSoc (withSocSources
      { s.soc.spiInt with pending := s.soc.spiInt.pending && !w.getLsbD 0 }
      (acknowledged (w.getLsbD 1) s.soc.spiHold) s)))

/-- Writing the EC enable mask: each bit is stored, pending is kept and is latched where status and the new enable are 1, and the
line follows; nothing else changes. -/
def Obligations.EcEnableWrite : Prop :=
  ∀ (w : Word) (s : State), Invariant s →
    encode (.ecWrEvEnable w) = ⟨.ec, 0x1010, w⟩ ∧
    exec (.ecWrEvEnable w) s = .next (respond .ack (settleEc (withEcSources
      (masked (w.getLsbD 0) s.ec.spiAvail) (masked (w.getLsbD 1) s.ec.spiEvent)
      (masked (w.getLsbD 2) s.ec.spiErr) s)))

/-- Writing the SoC enable mask, likewise, the two bits independent; SPI_INT latches nothing, since its status is 0 between
operations. -/
def Obligations.SocEnableWrite : Prop :=
  ∀ (w : Word) (s : State), Invariant s →
    encode (.socWrEvEnable w) = ⟨.soc, 0x1018, w⟩ ∧
    exec (.socWrEvEnable w) s = .next (respond .ack (settleSoc (withSocSources
      { s.soc.spiInt with enable := w.getLsbD 0 }
      (masked (w.getLsbD 1) s.soc.spiHold) s)))

/-- Every register write but Tx is idempotent: the same word twice leaves what once leaves. -/
def Obligations.RegisterWritesIdempotent : Prop :=
  ∀ (i : Instr) (s : State), Invariant s → i.kind = .wr → (∀ w, i ≠ .socWrTx w) →
    mapped i.inst (selOff (encode i).sel) = true → execAll [i, i] s = execAll [i] s

/-! Environment inputs and reset -/

/-- Driving an EC source's status: the facet takes the level, pending is latched where the source is enabled, the line follows;
an index above 2 is refused (the environment input is the spec's decision D13). -/
def Obligations.EcStatusDriven : Prop :=
  ∀ (b : Bool) (s : State),
    (Invariant s →
      exec (.ecEnvSetStatus 0 b) s = .next (respond .ack (settleEc
        (withEcSources (driven b s.ec.spiAvail) s.ec.spiEvent s.ec.spiErr s))) ∧
      exec (.ecEnvSetStatus 1 b) s = .next (respond .ack (settleEc
        (withEcSources s.ec.spiAvail (driven b s.ec.spiEvent) s.ec.spiErr s))) ∧
      exec (.ecEnvSetStatus 2 b) s = .next (respond .ack (settleEc
        (withEcSources s.ec.spiAvail s.ec.spiEvent (driven b s.ec.spiErr) s)))) ∧
    exec (.ecEnvSetStatus 3 b) s = .refused .operand

/-- Driving an EC Status field: that bit of `ecstat` takes the value, every other bit and everything else stays; another position
is refused (the environment input is the spec's decision D12). -/
def Obligations.EcStatusFieldDriven : Prop :=
  ∀ (k : BitVec 5) (b : Bool) (s : State),
    (k ∈ ([0, 1, 2, 3, 16, 17, 30, 31] : List (BitVec 5)) →
      ∃ e : Word, exec (.ecEnvEcstatSet k b) s = .next { s with ec := { s.ec with ecstat := e }, result := .ack } ∧
        ∀ j : Nat, j < 32 → e.getLsbD j = if j = k.toNat then b else s.ec.ecstat.getLsbD j) ∧
    (k ∉ ([0, 1, 2, 3, 16, 17, 30, 31] : List (BitVec 5)) → exec (.ecEnvEcstatSet k b) s = .refused .operand)

/-- The EC stub answers its sentinel to every byte and changes nothing (the sentinel is open and the exchange touches no register
by the spec's decision D14). -/
def Obligations.EcStubAnswersSentinel : Prop :=
  ∀ (b : Byte) (s : State), exec (.ecEnvXfer b) s = .next { s with result := .byte s.params.ecSentinel }

/-- Reset of the EC: every facet, the Status backing and the line are 0, the log and everything else stay; a second reset
changes nothing; the Control RESET bit is not it. -/
def Obligations.EcReset : Prop :=
  encode .ecRst = ⟨.ec, 0x2000, 0⟩ ∧
  ∀ s : State,
    exec .ecRst s = .next { s with
      ec := { ecstat := 0, spiAvail := ⟨false, false, false⟩, spiEvent := ⟨false, false, false⟩,
              spiErr := ⟨false, false, false⟩, line := false, diag := s.ec.diag },
      result := .ack } ∧
    execAll [.ecRst, .ecRst] s = execAll [.ecRst] s ∧
    exec (.ecWrControl 0x4) s = .next { s with result := .ack }

/-- Reset of the SoC: rx, INTENA, AUTOHOLD, TIP, every facet and the line are 0; the hold input, the device, the logs and
everything else stay; a second reset changes nothing. -/
def Obligations.SocReset : Prop :=
  encode .socRst = ⟨.soc, 0x2000, 0⟩ ∧
  ∀ s : State,
    exec .socRst s = .next { s with
      soc := { rx := 0, intena := false, autohold := false, tip := false, spiInt := ⟨false, false, false⟩,
               spiHold := ⟨false, false, false⟩, line := false, holdIn := s.soc.holdIn, device := s.soc.device,
               diag := s.soc.diag, xfers := s.soc.xfers },
      result := .ack } ∧
    execAll [.socRst, .socRst] s = execAll [.socRst] s

/-- Driving the hold input: in Environment mode it is all that changes; in Coupled mode SPI_HOLD status follows it and the line
is recomputed (the modes are the spec's decision D10). -/
def Obligations.HoldInputDriven : Prop :=
  ∀ (level : Bool) (s : State),
    (s.params.holdStatusMode = .environment →
      exec (.socEnvHoldSet level) s = .next { s with soc := { s.soc with holdIn := level }, result := .ack }) ∧
    (s.params.holdStatusMode = .coupled → Invariant s →
      exec (.socEnvHoldSet level) s = .next (respond .ack (settleSoc (withSocSources s.soc.spiInt
        (driven level s.soc.spiHold) { s with soc := { s.soc with holdIn := level } }))))

/-- Driving SPI_HOLD status in Environment mode; in Coupled mode the input is refused (the spec's decisions D10 and D29). -/
def Obligations.SpiHoldStatusDriven : Prop :=
  ∀ (b : Bool) (s : State),
    (s.params.holdStatusMode = .environment → Invariant s →
      exec (.socEnvSetStatus b) s = .next (respond .ack (settleSoc (withSocSources s.soc.spiInt
        (driven b s.soc.spiHold) s)))) ∧
    (s.params.holdStatusMode = .coupled → exec (.socEnvSetStatus b) s = .refused .selector)

/-- Attaching replaces the device and detaching empties the attachment point; nothing else changes (the spec's decision D16). -/
def Obligations.DeviceAttachedAndDetached : Prop :=
  ∀ (d : Device) (s : State),
    exec (.socEnvAttach d) s = .next { s with soc := { s.soc with device := some d }, result := .ack } ∧
    exec .socEnvDetach s = .next { s with soc := { s.soc with device := none }, result := .ack }

/-! The transfer engine -/

/-- A Tx write with no device attached logs NoDeviceAttached and changes nothing else, whatever INTENA, AUTOHOLD and the hold
input are; a wide word is logged before. -/
def Obligations.TxWithoutDevice : Prop :=
  ∀ (w : Word) (s : State), s.soc.device = none →
    exec (.socWrTx w) s = .next { s with
      soc := { s.soc with diag := s.soc.diag ++ (truncationLog w ++ [.noDeviceAttached (w.extractLsb' 0 16)]) },
      result := .ack }

/-- A Tx write blocked by hold logs HoldAsserted and changes nothing else; a wide word is logged before. -/
def Obligations.TxBlockedByHold : Prop :=
  ∀ (w : Word) (d : Device) (s : State), s.soc.device = some d → s.soc.autohold = true → s.soc.holdIn = true →
    exec (.socWrTx w) s = .next { s with
      soc := { s.soc with diag := s.soc.diag ++ (truncationLog w ++ [.holdAsserted (w.extractLsb' 0 16)]) },
      result := .ack }

/-- A Tx write that passes both preconditions exchanges the low byte, then the high byte, and the receive value is the two
answers in that order; the transfer is over when the write returns. -/
def Obligations.TxExchangesLowByteFirst : Prop :=
  ∀ (w : Word) (d : Device) (s : State), s.soc.device = some d → answers d = true →
    (s.soc.autohold = true → s.soc.holdIn = false) →
    ∃ (r0 r1 : Byte) (t : State), exec (.socWrTx w) s = .next t ∧
      t.soc.xfers = s.soc.xfers ++ [(w.extractLsb' 0 8, r0), (w.extractLsb' 8 8, r1)] ∧
      t.soc.rx.extractLsb' 0 8 = r0 ∧ t.soc.rx.extractLsb' 8 8 = r1 ∧ t.soc.tip = false

/-- The whole next state of a Tx write that runs: the exchange, the log of a wide word, and with INTENA the latch of SPI_INT
where it is enabled, the line following; a named device answers its function (INTENA as the finished-interrupt bit is the spec's
decision D11, the devices D15; an unknown device's answers are free, log 6). -/
def Obligations.TxTransferRuns : Prop :=
  ∀ (w : Word) (d : Device) (s : State), Invariant s → s.soc.device = some d → answers d = true →
    (s.soc.autohold = true → s.soc.holdIn = false) →
    ∃ (r0 r1 : Byte) (n : Nat),
      (∀ r, namedAnswer s d (w.extractLsb' 0 8) = some r → r0 = r) ∧
      (∀ r, namedAnswer s d (w.extractLsb' 8 8) = some r → r1 = r) ∧
      (d ≠ .unknown → n = s.draws.device) ∧
      exec (.socWrTx w) s = .next (respond .ack (settleSoc { s with
        soc := { s.soc with
          rx := r1 ++ r0
          spiInt := { s.soc.spiInt with pending := s.soc.spiInt.pending || (s.soc.intena && s.soc.spiInt.enable) }
          diag := s.soc.diag ++ truncationLog w
          xfers := s.soc.xfers ++ [(w.extractLsb' 0 8, r0), (w.extractLsb' 8 8, r1)] },
        draws := { s.draws with device := n } }))

/-- A Tx write that would exchange with a device that re-enters the SoC is refused RF_REENTRANT (the spec's decision D33). -/
def Obligations.TxReentryRefused : Prop :=
  ∀ (w : Word) (s : State), s.soc.device = some .reentrant → (s.soc.autohold = true → s.soc.holdIn = false) →
    exec (.socWrTx w) s = .refused .reentrant

/-- The document's own example: sending 0x1234 to the echo-plus-one device receives 0x1335. -/
def Obligations.EchoTransferOf1234 : Prop :=
  ∀ s : State, s.soc.device = some .echo1 → s.soc.autohold = false →
    ∃ t, exec (.socWrTx 0x1234) s = .next t ∧ t.soc.rx = 0x1335 ∧
      t.soc.xfers = s.soc.xfers ++ [(0x34, 0x35), (0x12, 0x13)]

/-- Only a Tx write logs, and it logs a wide word and then the abort, if any. -/
def Obligations.DiagnosticsOnlyFromTx : Prop :=
  ∀ (i : Instr) (s t : State), exec i s = .next t →
    t.ec.diag = s.ec.diag ∧
    (∀ w, i = .socWrTx w →
      t.soc.diag = s.soc.diag ++ truncationLog w ++ abortLog (w.extractLsb' 0 16) s) ∧
    ((∀ w, i ≠ .socWrTx w) → t.soc.diag = s.soc.diag)

/-! The interrupt controller -/

/-- Recompute latches every source of the instance whose status and enable are 1, clears nothing, changes no status or enable bit,
drives the line to the OR of pending and enable, spelled out source by source, and leaves the rest of the machine alone. -/
def Obligations.RecomputeLatchesAndDrivesLine : Prop :=
  ∀ (p : Inst) (s : State),
    (∀ x : Source, sourceOf (recompute p s) x =
      if sourceInst x = p then
        { sourceOf s x with pending := (sourceOf s x).pending || ((sourceOf s x).status && (sourceOf s x).enable) }
      else sourceOf s x) ∧
    (recompute .ec s).ec.line =
      (((recompute .ec s).ec.spiAvail.pending && (recompute .ec s).ec.spiAvail.enable) ||
        ((recompute .ec s).ec.spiEvent.pending && (recompute .ec s).ec.spiEvent.enable) ||
        ((recompute .ec s).ec.spiErr.pending && (recompute .ec s).ec.spiErr.enable)) ∧
    (recompute .soc s).soc.line =
      (((recompute .soc s).soc.spiInt.pending && (recompute .soc s).soc.spiInt.enable) ||
        ((recompute .soc s).soc.spiHold.pending && (recompute .soc s).soc.spiHold.enable)) ∧
    recompute .ec s = { s with ec := { s.ec with
      spiAvail := (recompute .ec s).ec.spiAvail, spiEvent := (recompute .ec s).ec.spiEvent,
      spiErr := (recompute .ec s).ec.spiErr, line := (recompute .ec s).ec.line } } ∧
    recompute .soc s = { s with soc := { s.soc with
      spiInt := (recompute .soc s).soc.spiInt, spiHold := (recompute .soc s).soc.spiHold,
      line := (recompute .soc s).soc.line } }

/-- A second recompute changes nothing (the spec's own inference in 41_interrupt_controller.md section 1). -/
def Obligations.RecomputeIdempotent : Prop :=
  ∀ (p : Inst) (s : State), recompute p (recompute p s) = recompute p s

/-- A pending bit falls only by a write-one-to-clear of that bit or a reset of its instance. -/
def Obligations.PendingFallsOnlyByAcknowledge : Prop :=
  ∀ (i : Instr) (s t : State) (x : Source), exec i s = .next t →
    (sourceOf s x).pending = true → (sourceOf t x).pending = false →
    acknowledges (sourceInst x) (sourceIndex x) i ∨ i = resetOf (sourceInst x)

/-- SPI_INT pending rises only by a transfer that ran with INTENA and its enable set (the engine as the only driver is the
spec's decision D29, INTENA its decision D11). -/
def Obligations.SpiIntRisesOnlyByTransfer : Prop :=
  ∀ (i : Instr) (s t : State), Invariant s → exec i s = .next t →
    s.soc.spiInt.pending = false → t.soc.spiInt.pending = true →
    (∃ w, i = .socWrTx w) ∧ transferRuns s = true ∧ s.soc.intena = true ∧ s.soc.spiInt.enable = true

/-- No bus access changes a status facet between operations. -/
def Obligations.BusNeverWritesStatus : Prop :=
  ∀ (i : Instr) (s t : State) (x : Source), Invariant s → (i.kind = .rd ∨ i.kind = .wr) → exec i s = .next t →
    (sourceOf t x).status = (sourceOf s x).status

/-- An enable facet changes only by a write of its EvEnable or a reset of its instance. -/
def Obligations.EnableChangesOnlyByMaskOrReset : Prop :=
  ∀ (i : Instr) (s t : State) (x : Source), exec i s = .next t →
    (sourceOf t x).enable ≠ (sourceOf s x).enable →
    (∃ m, i = Instr.unmask (sourceInst x) m) ∨ i = resetOf (sourceInst x)

/-! The whole machine -/

/-- The construction state at any parameters: every field of 10_state.md R44 is 0, the hold input and the device are the
parameters', the logs are empty, and the invariant holds; the model's reset is it at the model's parameters (log 4), with the
model's own fields empty (logs 1, 5, 12). -/
def Obligations.ConstructionState : Prop :=
  (∀ p : Params,
    State.construct p = {
      ec := { ecstat := 0, spiAvail := ⟨false, false, false⟩, spiEvent := ⟨false, false, false⟩,
              spiErr := ⟨false, false, false⟩, line := false, diag := [] },
      soc := { rx := 0, intena := false, autohold := false, tip := false, spiInt := ⟨false, false, false⟩,
               spiHold := ⟨false, false, false⟩, line := false, holdIn := p.holdInit, device := p.deviceInit,
               diag := [], xfers := [] },
      params := p, requests := [], count := 0, draws := ⟨0, 0, 0⟩, result := .none } ∧
    Invariant (State.construct p)) ∧
  Invariant State.reset

/-- Every step keeps the invariant: pending is latched while status and enable are 1, each line is the OR of pending and enable,
the engine is idle with its pulse low, and the reserved Status bits are 0. -/
def Obligations.StepKeepsInvariant : Prop :=
  ∀ s t : State, Invariant s → step s = .next t → Invariant t

/-- An operation of one instance leaves the other instance as it was. That exec also leaves the parameters, the queue and the count
as they were, and the counts of the free values drawn for the other instance, speaks of the model's own layout, not of the spec's:
the parameters in State are log 7, the queue and the count that the step alone moves are log 1, the counts of draws logs 5 and 6
(each a DESIGN CHOICE). -/
def Obligations.InstancesAreSeparate : Prop :=
  ∀ (i : Instr) (s t : State), exec i s = .next t →
    (i.inst = .ec → t.soc = s.soc ∧ t.draws.soc = s.draws.soc ∧ t.draws.device = s.draws.device) ∧
    (i.inst = .soc → t.ec = s.ec ∧ t.draws.ec = s.draws.ec) ∧
    t.params = s.params ∧ t.requests = s.requests ∧ t.count = s.count

/-- Operations of different instances commute, without exception: in either order both complete, each returns the same, and the
machine is left the same but for which answer is the last one; where the second faults or is refused it does so without the first
(the last answer is the model's field, log 12; the counts of draws are kept apart by instance, logs 5 and 6). -/
def Obligations.InstancesCommute : Prop :=
  ∀ (i j : Instr) (s a : State), i.inst ≠ j.inst → exec i s = .next a →
    (∀ t, exec j a = .next t →
      ∃ b u, exec j s = .next b ∧ exec i b = .next u ∧ b.result = t.result ∧ u = { t with result := a.result }) ∧
    (∀ f, exec j a = .fault f ↔ exec j s = .fault f) ∧
    (∀ r, exec j a = .refused r ↔ exec j s = .refused r)

/-- The receive value and the exchange trace change only by a transfer that runs; the receive value also by a reset. -/
def Obligations.RxChangesOnlyByTransfer : Prop :=
  ∀ (i : Instr) (s t : State), exec i s = .next t →
    (t.soc.rx ≠ s.soc.rx → ((∃ w, i = .socWrTx w) ∧ transferRuns s = true) ∨ i = .socRst) ∧
    (t.soc.xfers ≠ s.soc.xfers → (∃ w, i = .socWrTx w) ∧ transferRuns s = true)

/-- The hold input and the device change only by the environment inputs that own them. -/
def Obligations.InputsOwnedByEnvironment : Prop :=
  ∀ (i : Instr) (s t : State), exec i s = .next t →
    (t.soc.holdIn ≠ s.soc.holdIn → ∃ l, i = .socEnvHoldSet l) ∧
    (t.soc.device ≠ s.soc.device → (∃ d, i = .socEnvAttach d) ∨ i = .socEnvDetach)

/-- Both logs and the exchange trace only grow, under every operation, reset among them. -/
def Obligations.LogsOnlyGrow : Prop :=
  ∀ (i : Instr) (s t : State), exec i s = .next t →
    s.ec.diag <+: t.ec.diag ∧ s.soc.diag <+: t.soc.diag ∧ s.soc.xfers <+: t.soc.xfers

/-- What an operation does in Coupled mode, its Environment-mode form does in Environment mode, with the status change as a
separate step (the modes are the spec's decision D10). -/
def Obligations.EnvironmentAdmitsCoupled : Prop :=
  ∀ (i : Instr) (s t : State), s.params.holdStatusMode = .coupled → exec i s = .next t →
    ∃ u, execAll (inEnvironment i) (withMode .environment s) = .next u ∧ instances u = instances t
end

