-- ==== Sys2Proof/Laws/Bits.lean ====
section
/-! SUPPORT. The bit-level facts of field extraction, one-bit cells and selector words. -/

namespace Sys2Proof.Machine

@[simp] theorem bit_eq_one (b : Bool) : bit b = 1 ↔ b = true := by cases b <;> decide

@[simp] theorem bit_getElem_zero (b : Bool) : (bit b)[0] = b := by cases b <;> decide

theorem bit_getLsbD_zero (b : Bool) : (bit b).getLsbD 0 = b := by cases b <;> decide

/-- A one-bit field operand, as the bit of the written word it meets (R75). -/
theorem oneBit_operand (w : Word) (k : Nat) : (w.extractLsb' k 1).setWidth 32 = bit (w.getLsbD k) := by
  apply BitVec.eq_of_getLsbD_eq
  intro i hi
  cases h : w.getLsbD k <;> by_cases h0 : i = 0 <;> simp [bit, h, h0]

/-- What a one-bit field of a register takes of a written word (R75, R105). -/
theorem fieldOperand_oneBit (f : Field) (h : f.width = 1) (w : Word) : fieldOperand f w = bit (w.getLsbD f.lsb) := by
  rw [fieldOperand, h, oneBit_operand]

/-- Setting one bit of a word: that bit takes the value, every other bit stays (R173). -/
theorem withBit_getLsbD (w : Word) (k : Nat) (b : Bool) (j : Nat) (hj : j < 32) :
    (withBit w k b).getLsbD j = if j = k then b else w.getLsbD j := by
  have hone : ∀ n : Nat, ((1 : Word).getLsbD n) = decide (n = 0) := by
    intro n
    rcases n with _ | n
    · decide
    · simp
  by_cases hjk : j = k
  · subst hjk
    cases b <;> simp [withBit, bit, hj]
  · rcases Nat.lt_or_gt_of_ne hjk with h | h
    · simp [withBit, hj, h, hjk]
    · have h1 : ¬ j < k := by omega
      have h2 : j - k ≠ 0 := by omega
      cases b <;> simp [withBit, bit, hj, h1, hjk, h2]

end Sys2Proof.Machine

namespace Sys2Proof

/-- The high part of a selector. -/
theorem append_high (a : BitVec 2) (b : BitVec 12) : (a ++ b).extractLsb' 12 2 = a := by
  apply BitVec.eq_of_getLsbD_eq
  intro i hi
  rw [BitVec.getLsbD_extractLsb', BitVec.getLsbD_append]
  simp [hi]

/-- The low part of a selector. -/
theorem append_low (a : BitVec 2) (b : BitVec 12) : (a ++ b).extractLsb' 0 12 = b := by
  apply BitVec.eq_of_getLsbD_eq
  intro i hi
  rw [BitVec.getLsbD_extractLsb', BitVec.getLsbD_append]
  simp [hi]

/-- A selector from its two parts. -/
theorem append_parts (sel : BitVec (2 + 12)) : sel.extractLsb' 12 2 ++ sel.extractLsb' 0 12 = sel := by
  apply BitVec.eq_of_getLsbD_eq
  intro i hi
  simp only [BitVec.getLsbD_append, BitVec.getLsbD_extractLsb']
  by_cases h12 : i < 12
  · simp [h12]
  · have h2 : i - 12 < 2 := by omega
    have h3 : 12 + (i - 12) = i := by omega
    simp [h12, h2, h3]

@[simp] theorem selKind_selector (k : Kind) (off : Offset) : selKind (selector k off) = k := by
  have h : (selector k off).extractLsb' 12 2 = kindBits k := append_high (kindBits k) off
  cases k <;> simp only [selKind, h] <;> decide

@[simp] theorem selOff_selector (k : Kind) (off : Offset) : selOff (selector k off) = off :=
  append_low (kindBits k) off

/-- A selector is its kind and its offset (R71). -/
theorem selector_selKind_selOff (sel : Selector) : selector (selKind sel) (selOff sel) = sel := by
  have hk : ∀ k : BitVec 2, kindBits (if k = 0 then .rd else if k = 1 then .wr else if k = 2 then .rst else .env) = k := by
    decide
  have h : kindBits (selKind sel) = sel.extractLsb' 12 2 := hk _
  rw [selector, h]
  exact append_parts sel

end Sys2Proof
end

