-- ==== Sys2Proof/Laws/State.lean ====
section
/-! SUPPORT. One lemma per field per update of the state, and what replacing a source or a line leaves. -/

namespace Sys2Proof.Machine

@[simp] theorem respond_ec (r : Response) (s : State) :
    (respond r s).ec = s.ec := rfl

@[simp] theorem respond_soc (r : Response) (s : State) :
    (respond r s).soc = s.soc := rfl

@[simp] theorem respond_params (r : Response) (s : State) :
    (respond r s).params = s.params := rfl

@[simp] theorem respond_requests (r : Response) (s : State) :
    (respond r s).requests = s.requests := rfl

@[simp] theorem respond_count (r : Response) (s : State) :
    (respond r s).count = s.count := rfl

@[simp] theorem respond_draws (r : Response) (s : State) :
    (respond r s).draws = s.draws := rfl

@[simp] theorem respond_result (r : Response) (s : State) :
    (respond r s).result = r := rfl

@[simp] theorem takeRequest_ec (s : State) :
    (takeRequest s).ec = s.ec := rfl

@[simp] theorem takeRequest_soc (s : State) :
    (takeRequest s).soc = s.soc := rfl

@[simp] theorem takeRequest_params (s : State) :
    (takeRequest s).params = s.params := rfl

@[simp] theorem takeRequest_requests (s : State) :
    (takeRequest s).requests = s.requests.tail := rfl

@[simp] theorem takeRequest_count (s : State) :
    (takeRequest s).count = s.count + 1 := rfl

@[simp] theorem takeRequest_draws (s : State) :
    (takeRequest s).draws = s.draws := rfl

@[simp] theorem takeRequest_result (s : State) :
    (takeRequest s).result = s.result := rfl

@[simp] theorem placeRequest_ec (q : Request) (s : State) :
    (placeRequest q s).ec = s.ec := rfl

@[simp] theorem placeRequest_soc (q : Request) (s : State) :
    (placeRequest q s).soc = s.soc := rfl

@[simp] theorem placeRequest_params (q : Request) (s : State) :
    (placeRequest q s).params = s.params := rfl

@[simp] theorem placeRequest_requests (q : Request) (s : State) :
    (placeRequest q s).requests = q :: s.requests := rfl

@[simp] theorem placeRequest_count (q : Request) (s : State) :
    (placeRequest q s).count = s.count := rfl

@[simp] theorem placeRequest_draws (q : Request) (s : State) :
    (placeRequest q s).draws = s.draws := rfl

@[simp] theorem placeRequest_result (q : Request) (s : State) :
    (placeRequest q s).result = s.result := rfl

@[simp] theorem afterFault_ec (s : State) :
    (afterFault s).ec = s.ec := rfl

@[simp] theorem afterFault_soc (s : State) :
    (afterFault s).soc = s.soc := rfl

@[simp] theorem afterFault_params (s : State) :
    (afterFault s).params = s.params := rfl

@[simp] theorem afterFault_requests (s : State) :
    (afterFault s).requests = s.requests.tail := rfl

@[simp] theorem afterFault_count (s : State) :
    (afterFault s).count = s.count + 1 := rfl

@[simp] theorem afterFault_draws (s : State) :
    (afterFault s).draws = s.draws := rfl

@[simp] theorem afterFault_result (s : State) :
    (afterFault s).result = .none := rfl

@[simp] theorem logSoc_ec (d : Diagnostic) (s : State) :
    (logSoc d s).ec = s.ec := rfl

@[simp] theorem logSoc_params (d : Diagnostic) (s : State) :
    (logSoc d s).params = s.params := rfl

@[simp] theorem logSoc_requests (d : Diagnostic) (s : State) :
    (logSoc d s).requests = s.requests := rfl

@[simp] theorem logSoc_count (d : Diagnostic) (s : State) :
    (logSoc d s).count = s.count := rfl

@[simp] theorem logSoc_draws (d : Diagnostic) (s : State) :
    (logSoc d s).draws = s.draws := rfl

@[simp] theorem logSoc_result (d : Diagnostic) (s : State) :
    (logSoc d s).result = s.result := rfl

@[simp] theorem logSoc_soc_rx (d : Diagnostic) (s : State) :
    (logSoc d s).soc.rx = s.soc.rx := rfl

@[simp] theorem logSoc_soc_intena (d : Diagnostic) (s : State) :
    (logSoc d s).soc.intena = s.soc.intena := rfl

@[simp] theorem logSoc_soc_autohold (d : Diagnostic) (s : State) :
    (logSoc d s).soc.autohold = s.soc.autohold := rfl

@[simp] theorem logSoc_soc_tip (d : Diagnostic) (s : State) :
    (logSoc d s).soc.tip = s.soc.tip := rfl

@[simp] theorem logSoc_soc_spiInt (d : Diagnostic) (s : State) :
    (logSoc d s).soc.spiInt = s.soc.spiInt := rfl

@[simp] theorem logSoc_soc_spiHold (d : Diagnostic) (s : State) :
    (logSoc d s).soc.spiHold = s.soc.spiHold := rfl

@[simp] theorem logSoc_soc_line (d : Diagnostic) (s : State) :
    (logSoc d s).soc.line = s.soc.line := rfl

@[simp] theorem logSoc_soc_holdIn (d : Diagnostic) (s : State) :
    (logSoc d s).soc.holdIn = s.soc.holdIn := rfl

@[simp] theorem logSoc_soc_device (d : Diagnostic) (s : State) :
    (logSoc d s).soc.device = s.soc.device := rfl

@[simp] theorem logSoc_soc_diag (d : Diagnostic) (s : State) :
    (logSoc d s).soc.diag = s.soc.diag ++ [d] := rfl

@[simp] theorem logSoc_soc_xfers (d : Diagnostic) (s : State) :
    (logSoc d s).soc.xfers = s.soc.xfers := rfl

@[simp] theorem traceXfer_ec (out inn : Byte) (s : State) :
    (traceXfer out inn s).ec = s.ec := rfl

@[simp] theorem traceXfer_params (out inn : Byte) (s : State) :
    (traceXfer out inn s).params = s.params := rfl

@[simp] theorem traceXfer_requests (out inn : Byte) (s : State) :
    (traceXfer out inn s).requests = s.requests := rfl

@[simp] theorem traceXfer_count (out inn : Byte) (s : State) :
    (traceXfer out inn s).count = s.count := rfl

@[simp] theorem traceXfer_draws (out inn : Byte) (s : State) :
    (traceXfer out inn s).draws = s.draws := rfl

@[simp] theorem traceXfer_result (out inn : Byte) (s : State) :
    (traceXfer out inn s).result = s.result := rfl

@[simp] theorem traceXfer_soc_rx (out inn : Byte) (s : State) :
    (traceXfer out inn s).soc.rx = s.soc.rx := rfl

@[simp] theorem traceXfer_soc_intena (out inn : Byte) (s : State) :
    (traceXfer out inn s).soc.intena = s.soc.intena := rfl

@[simp] theorem traceXfer_soc_autohold (out inn : Byte) (s : State) :
    (traceXfer out inn s).soc.autohold = s.soc.autohold := rfl

@[simp] theorem traceXfer_soc_tip (out inn : Byte) (s : State) :
    (traceXfer out inn s).soc.tip = s.soc.tip := rfl

@[simp] theorem traceXfer_soc_spiInt (out inn : Byte) (s : State) :
    (traceXfer out inn s).soc.spiInt = s.soc.spiInt := rfl

@[simp] theorem traceXfer_soc_spiHold (out inn : Byte) (s : State) :
    (traceXfer out inn s).soc.spiHold = s.soc.spiHold := rfl

@[simp] theorem traceXfer_soc_line (out inn : Byte) (s : State) :
    (traceXfer out inn s).soc.line = s.soc.line := rfl

@[simp] theorem traceXfer_soc_holdIn (out inn : Byte) (s : State) :
    (traceXfer out inn s).soc.holdIn = s.soc.holdIn := rfl

@[simp] theorem traceXfer_soc_device (out inn : Byte) (s : State) :
    (traceXfer out inn s).soc.device = s.soc.device := rfl

@[simp] theorem traceXfer_soc_diag (out inn : Byte) (s : State) :
    (traceXfer out inn s).soc.diag = s.soc.diag := rfl

@[simp] theorem traceXfer_soc_xfers (out inn : Byte) (s : State) :
    (traceXfer out inn s).soc.xfers = s.soc.xfers ++ [(out, inn)] := rfl

@[simp] theorem withHold_ec (level : Bool) (s : State) :
    (withHold level s).ec = s.ec := rfl

@[simp] theorem withHold_params (level : Bool) (s : State) :
    (withHold level s).params = s.params := rfl

@[simp] theorem withHold_requests (level : Bool) (s : State) :
    (withHold level s).requests = s.requests := rfl

@[simp] theorem withHold_count (level : Bool) (s : State) :
    (withHold level s).count = s.count := rfl

@[simp] theorem withHold_draws (level : Bool) (s : State) :
    (withHold level s).draws = s.draws := rfl

@[simp] theorem withHold_result (level : Bool) (s : State) :
    (withHold level s).result = s.result := rfl

@[simp] theorem withHold_soc_rx (level : Bool) (s : State) :
    (withHold level s).soc.rx = s.soc.rx := rfl

@[simp] theorem withHold_soc_intena (level : Bool) (s : State) :
    (withHold level s).soc.intena = s.soc.intena := rfl

@[simp] theorem withHold_soc_autohold (level : Bool) (s : State) :
    (withHold level s).soc.autohold = s.soc.autohold := rfl

@[simp] theorem withHold_soc_tip (level : Bool) (s : State) :
    (withHold level s).soc.tip = s.soc.tip := rfl

@[simp] theorem withHold_soc_spiInt (level : Bool) (s : State) :
    (withHold level s).soc.spiInt = s.soc.spiInt := rfl

@[simp] theorem withHold_soc_spiHold (level : Bool) (s : State) :
    (withHold level s).soc.spiHold = s.soc.spiHold := rfl

@[simp] theorem withHold_soc_line (level : Bool) (s : State) :
    (withHold level s).soc.line = s.soc.line := rfl

@[simp] theorem withHold_soc_holdIn (level : Bool) (s : State) :
    (withHold level s).soc.holdIn = level := rfl

@[simp] theorem withHold_soc_device (level : Bool) (s : State) :
    (withHold level s).soc.device = s.soc.device := rfl

@[simp] theorem withHold_soc_diag (level : Bool) (s : State) :
    (withHold level s).soc.diag = s.soc.diag := rfl

@[simp] theorem withHold_soc_xfers (level : Bool) (s : State) :
    (withHold level s).soc.xfers = s.soc.xfers := rfl

@[simp] theorem withDevice_ec (d : Option Device) (s : State) :
    (withDevice d s).ec = s.ec := rfl

@[simp] theorem withDevice_params (d : Option Device) (s : State) :
    (withDevice d s).params = s.params := rfl

@[simp] theorem withDevice_requests (d : Option Device) (s : State) :
    (withDevice d s).requests = s.requests := rfl

@[simp] theorem withDevice_count (d : Option Device) (s : State) :
    (withDevice d s).count = s.count := rfl

@[simp] theorem withDevice_draws (d : Option Device) (s : State) :
    (withDevice d s).draws = s.draws := rfl

@[simp] theorem withDevice_result (d : Option Device) (s : State) :
    (withDevice d s).result = s.result := rfl

@[simp] theorem withDevice_soc_rx (d : Option Device) (s : State) :
    (withDevice d s).soc.rx = s.soc.rx := rfl

@[simp] theorem withDevice_soc_intena (d : Option Device) (s : State) :
    (withDevice d s).soc.intena = s.soc.intena := rfl

@[simp] theorem withDevice_soc_autohold (d : Option Device) (s : State) :
    (withDevice d s).soc.autohold = s.soc.autohold := rfl

@[simp] theorem withDevice_soc_tip (d : Option Device) (s : State) :
    (withDevice d s).soc.tip = s.soc.tip := rfl

@[simp] theorem withDevice_soc_spiInt (d : Option Device) (s : State) :
    (withDevice d s).soc.spiInt = s.soc.spiInt := rfl

@[simp] theorem withDevice_soc_spiHold (d : Option Device) (s : State) :
    (withDevice d s).soc.spiHold = s.soc.spiHold := rfl

@[simp] theorem withDevice_soc_line (d : Option Device) (s : State) :
    (withDevice d s).soc.line = s.soc.line := rfl

@[simp] theorem withDevice_soc_holdIn (d : Option Device) (s : State) :
    (withDevice d s).soc.holdIn = s.soc.holdIn := rfl

@[simp] theorem withDevice_soc_device (d : Option Device) (s : State) :
    (withDevice d s).soc.device = d := rfl

@[simp] theorem withDevice_soc_diag (d : Option Device) (s : State) :
    (withDevice d s).soc.diag = s.soc.diag := rfl

@[simp] theorem withDevice_soc_xfers (d : Option Device) (s : State) :
    (withDevice d s).soc.xfers = s.soc.xfers := rfl

@[simp] theorem withLine_ec_soc (b : Bool) (s : State) :
    (withLine .ec b s).soc = s.soc := rfl

@[simp] theorem withLine_ec_params (b : Bool) (s : State) :
    (withLine .ec b s).params = s.params := rfl

@[simp] theorem withLine_ec_requests (b : Bool) (s : State) :
    (withLine .ec b s).requests = s.requests := rfl

@[simp] theorem withLine_ec_count (b : Bool) (s : State) :
    (withLine .ec b s).count = s.count := rfl

@[simp] theorem withLine_ec_draws (b : Bool) (s : State) :
    (withLine .ec b s).draws = s.draws := rfl

@[simp] theorem withLine_ec_result (b : Bool) (s : State) :
    (withLine .ec b s).result = s.result := rfl

@[simp] theorem withLine_ec_self_ecstat (b : Bool) (s : State) :
    (withLine .ec b s).ec.ecstat = s.ec.ecstat := rfl

@[simp] theorem withLine_ec_self_spiAvail (b : Bool) (s : State) :
    (withLine .ec b s).ec.spiAvail = s.ec.spiAvail := rfl

@[simp] theorem withLine_ec_self_spiEvent (b : Bool) (s : State) :
    (withLine .ec b s).ec.spiEvent = s.ec.spiEvent := rfl

@[simp] theorem withLine_ec_self_spiErr (b : Bool) (s : State) :
    (withLine .ec b s).ec.spiErr = s.ec.spiErr := rfl

@[simp] theorem withLine_ec_self_line (b : Bool) (s : State) :
    (withLine .ec b s).ec.line = b := rfl

@[simp] theorem withLine_ec_self_diag (b : Bool) (s : State) :
    (withLine .ec b s).ec.diag = s.ec.diag := rfl

@[simp] theorem withLine_soc_ec (b : Bool) (s : State) :
    (withLine .soc b s).ec = s.ec := rfl

@[simp] theorem withLine_soc_params (b : Bool) (s : State) :
    (withLine .soc b s).params = s.params := rfl

@[simp] theorem withLine_soc_requests (b : Bool) (s : State) :
    (withLine .soc b s).requests = s.requests := rfl

@[simp] theorem withLine_soc_count (b : Bool) (s : State) :
    (withLine .soc b s).count = s.count := rfl

@[simp] theorem withLine_soc_draws (b : Bool) (s : State) :
    (withLine .soc b s).draws = s.draws := rfl

@[simp] theorem withLine_soc_result (b : Bool) (s : State) :
    (withLine .soc b s).result = s.result := rfl

@[simp] theorem withLine_soc_self_rx (b : Bool) (s : State) :
    (withLine .soc b s).soc.rx = s.soc.rx := rfl

@[simp] theorem withLine_soc_self_intena (b : Bool) (s : State) :
    (withLine .soc b s).soc.intena = s.soc.intena := rfl

@[simp] theorem withLine_soc_self_autohold (b : Bool) (s : State) :
    (withLine .soc b s).soc.autohold = s.soc.autohold := rfl

@[simp] theorem withLine_soc_self_tip (b : Bool) (s : State) :
    (withLine .soc b s).soc.tip = s.soc.tip := rfl

@[simp] theorem withLine_soc_self_spiInt (b : Bool) (s : State) :
    (withLine .soc b s).soc.spiInt = s.soc.spiInt := rfl

@[simp] theorem withLine_soc_self_spiHold (b : Bool) (s : State) :
    (withLine .soc b s).soc.spiHold = s.soc.spiHold := rfl

@[simp] theorem withLine_soc_self_line (b : Bool) (s : State) :
    (withLine .soc b s).soc.line = b := rfl

@[simp] theorem withLine_soc_self_holdIn (b : Bool) (s : State) :
    (withLine .soc b s).soc.holdIn = s.soc.holdIn := rfl

@[simp] theorem withLine_soc_self_device (b : Bool) (s : State) :
    (withLine .soc b s).soc.device = s.soc.device := rfl

@[simp] theorem withLine_soc_self_diag (b : Bool) (s : State) :
    (withLine .soc b s).soc.diag = s.soc.diag := rfl

@[simp] theorem withLine_soc_self_xfers (b : Bool) (s : State) :
    (withLine .soc b s).soc.xfers = s.soc.xfers := rfl

@[simp] theorem withLine_params (p : Inst) (b : Bool) (s : State) :
    (withLine p b s).params = s.params := by cases p <;> rfl

@[simp] theorem withSource_params (x : Source) (e : EventSource) (s : State) :
    (withSource x e s).params = s.params := by cases x <;> rfl

@[simp] theorem withLine_requests (p : Inst) (b : Bool) (s : State) :
    (withLine p b s).requests = s.requests := by cases p <;> rfl

@[simp] theorem withSource_requests (x : Source) (e : EventSource) (s : State) :
    (withSource x e s).requests = s.requests := by cases x <;> rfl

@[simp] theorem withLine_count (p : Inst) (b : Bool) (s : State) :
    (withLine p b s).count = s.count := by cases p <;> rfl

@[simp] theorem withSource_count (x : Source) (e : EventSource) (s : State) :
    (withSource x e s).count = s.count := by cases x <;> rfl

@[simp] theorem withLine_draws (p : Inst) (b : Bool) (s : State) :
    (withLine p b s).draws = s.draws := by cases p <;> rfl

@[simp] theorem withSource_draws (x : Source) (e : EventSource) (s : State) :
    (withSource x e s).draws = s.draws := by cases x <;> rfl

@[simp] theorem withLine_result (p : Inst) (b : Bool) (s : State) :
    (withLine p b s).result = s.result := by cases p <;> rfl

@[simp] theorem withSource_result (x : Source) (e : EventSource) (s : State) :
    (withSource x e s).result = s.result := by cases x <;> rfl

@[simp] theorem withFacet_status_status (b : Bool) (e : EventSource) :
    (withFacet .status b e).status = b := rfl

@[simp] theorem withFacet_status_pending (b : Bool) (e : EventSource) :
    (withFacet .status b e).pending = e.pending := rfl

@[simp] theorem withFacet_status_enable (b : Bool) (e : EventSource) :
    (withFacet .status b e).enable = e.enable := rfl

@[simp] theorem withFacet_pending_status (b : Bool) (e : EventSource) :
    (withFacet .pending b e).status = e.status := rfl

@[simp] theorem withFacet_pending_pending (b : Bool) (e : EventSource) :
    (withFacet .pending b e).pending = b := rfl

@[simp] theorem withFacet_pending_enable (b : Bool) (e : EventSource) :
    (withFacet .pending b e).enable = e.enable := rfl

@[simp] theorem withFacet_enable_status (b : Bool) (e : EventSource) :
    (withFacet .enable b e).status = e.status := rfl

@[simp] theorem withFacet_enable_pending (b : Bool) (e : EventSource) :
    (withFacet .enable b e).pending = e.pending := rfl

@[simp] theorem withFacet_enable_enable (b : Bool) (e : EventSource) :
    (withFacet .enable b e).enable = b := rfl

@[simp] theorem sourceOf_spiAvail (s : State) :
    sourceOf s .spiAvail = s.ec.spiAvail := rfl

@[simp] theorem sourceOf_spiEvent (s : State) :
    sourceOf s .spiEvent = s.ec.spiEvent := rfl

@[simp] theorem sourceOf_spiErr (s : State) :
    sourceOf s .spiErr = s.ec.spiErr := rfl

@[simp] theorem sourceOf_spiInt (s : State) :
    sourceOf s .spiInt = s.soc.spiInt := rfl

@[simp] theorem sourceOf_spiHold (s : State) :
    sourceOf s .spiHold = s.soc.spiHold := rfl

/-- Reading back a replaced source. -/
@[simp] theorem sourceOf_withSource (x : Source) (e : EventSource) (s : State) : sourceOf (withSource x e s) x = e := by
  cases x <;> rfl

/-- Replacing one source leaves every other source. -/
theorem sourceOf_withSource_of_ne {x y : Source} (h : y ≠ x) (e : EventSource) (s : State) :
    sourceOf (withSource x e s) y = sourceOf s y := by
  cases x <;> cases y <;> first | rfl | exact absurd rfl h

/-- Driving a line leaves every source. -/
@[simp] theorem sourceOf_withLine (p : Inst) (b : Bool) (s : State) (x : Source) :
    sourceOf (withLine p b s) x = sourceOf s x := by
  cases p <;> cases x <;> rfl

/-- Replacing a source of one instance leaves the other instance: the EC. -/
theorem withSource_ec_of_soc {x : Source} (h : sourceInst x = .soc) (e : EventSource) (s : State) :
    (withSource x e s).ec = s.ec := by
  cases x <;> first | rfl | exact absurd h (by decide)

/-- Replacing a source of one instance leaves the other instance: the SoC. -/
theorem withSource_soc_of_ec {x : Source} (h : sourceInst x = .ec) (e : EventSource) (s : State) :
    (withSource x e s).soc = s.soc := by
  cases x <;> first | rfl | exact absurd h (by decide)

@[simp] theorem withReads_ec (p : Inst) (n : Nat) (s : State) :
    (withReads p n s).ec = s.ec := by cases p <;> rfl

@[simp] theorem withReads_soc (p : Inst) (n : Nat) (s : State) :
    (withReads p n s).soc = s.soc := by cases p <;> rfl

@[simp] theorem withReads_params (p : Inst) (n : Nat) (s : State) :
    (withReads p n s).params = s.params := by cases p <;> rfl

@[simp] theorem withReads_requests (p : Inst) (n : Nat) (s : State) :
    (withReads p n s).requests = s.requests := by cases p <;> rfl

@[simp] theorem withReads_count (p : Inst) (n : Nat) (s : State) :
    (withReads p n s).count = s.count := by cases p <;> rfl

@[simp] theorem withReads_result (p : Inst) (n : Nat) (s : State) :
    (withReads p n s).result = s.result := by cases p <;> rfl

@[simp] theorem withReads_ec_draws (n : Nat) (s : State) :
    (withReads .ec n s).draws = { s.draws with ec := n } := rfl

@[simp] theorem withReads_soc_draws (n : Nat) (s : State) :
    (withReads .soc n s).draws = { s.draws with soc := n } := rfl

@[simp] theorem withReads_device (p : Inst) (n : Nat) (s : State) :
    (withReads p n s).draws.device = s.draws.device := by cases p <;> rfl

@[simp] theorem readsOf_withReads (p : Inst) (n : Nat) (s : State) :
    readsOf p (withReads p n s) = n := by cases p <;> rfl

@[simp] theorem withReads_withReads (p : Inst) (m n : Nat) (s : State) :
    withReads p n (withReads p m s) = withReads p n s := by cases p <;> rfl

@[simp] theorem withReplies_ec (n : Nat) (s : State) :
    (withReplies n s).ec = s.ec := rfl

@[simp] theorem withReplies_soc (n : Nat) (s : State) :
    (withReplies n s).soc = s.soc := rfl

@[simp] theorem withReplies_params (n : Nat) (s : State) :
    (withReplies n s).params = s.params := rfl

@[simp] theorem withReplies_requests (n : Nat) (s : State) :
    (withReplies n s).requests = s.requests := rfl

@[simp] theorem withReplies_count (n : Nat) (s : State) :
    (withReplies n s).count = s.count := rfl

@[simp] theorem withReplies_result (n : Nat) (s : State) :
    (withReplies n s).result = s.result := rfl

@[simp] theorem withReplies_draws (n : Nat) (s : State) :
    (withReplies n s).draws = { s.draws with device := n } := rfl

@[simp] theorem sourceOf_withReads (p : Inst) (n : Nat) (s : State) (x : Source) :
    sourceOf (withReads p n s) x = sourceOf s x := by cases p <;> cases x <;> rfl

@[simp] theorem sourceOf_respond (r : Response) (s : State) (x : Source) :
    sourceOf (respond r s) x = sourceOf s x := by cases x <;> rfl

end Sys2Proof.Machine
end

