-- ==== Sys2Proof/Laws/Controller.lean ====
section
/-! SUPPORT. What the interrupt controller's operations can do, said once (41_interrupt_controller.md). -/

namespace Sys2Proof.Machine

/-- A source holds its pending latch: the latch of a latched source is itself (R122). -/
theorem latch_of_latched {e : EventSource} (h : Latched e) : latch e = e := by
  rcases e with ⟨_ | _, _ | _, _ | _⟩ <;> first | rfl | exact absurd (h rfl rfl) (by decide)

/-- The latch as one formula (R122). -/
theorem latch_eq (e : EventSource) : latch e = { e with pending := e.pending || (e.status && e.enable) } := by
  rcases e with ⟨_ | _, _ | _, _ | _⟩ <;> rfl

/-- After the latch a source is latched (R45 I1). -/
theorem latched_latch (e : EventSource) : Latched (latch e) := by
  rcases e with ⟨_ | _, _ | _, _ | _⟩ <;> simp [Latched, latch]

@[simp] theorem latch_status (e : EventSource) : (latch e).status = e.status := by rw [latch_eq]

@[simp] theorem latch_enable (e : EventSource) : (latch e).enable = e.enable := by rw [latch_eq]

@[simp] theorem latch_pending (e : EventSource) : (latch e).pending = (e.pending || (e.status && e.enable)) := by
  rw [latch_eq]

/-- The level the model drives on the EC's line is R37's OR (R122). -/
theorem lineLevel_ec (s : State) : lineLevel .ec s = ecRequests s := rfl

/-- The level the model drives on the SoC's line is R37's OR (R122). -/
theorem lineLevel_soc (s : State) : lineLevel .soc s = socRequests s := rfl

/-- Recompute on the EC: its three sources latched, its line the OR, nothing else (R122). -/
theorem recompute_ec (s : State) : recompute .ec s =
    { s with ec := { s.ec with
      spiAvail := latch s.ec.spiAvail, spiEvent := latch s.ec.spiEvent, spiErr := latch s.ec.spiErr,
      line := requesting (latch s.ec.spiAvail) || requesting (latch s.ec.spiEvent) || requesting (latch s.ec.spiErr) } } := rfl

/-- Recompute on the SoC: its two sources latched, its line the OR, nothing else (R122). -/
theorem recompute_soc (s : State) : recompute .soc s =
    { s with soc := { s.soc with
      spiInt := latch s.soc.spiInt, spiHold := latch s.soc.spiHold,
      line := requesting (latch s.soc.spiInt) || requesting (latch s.soc.spiHold) } } := rfl

/-- Where the sources are latched, recompute on the EC only drives the line. -/
theorem recompute_ec_of_latched {s : State} (h : EcLatched s) : recompute .ec s = settleEc s := by
  rw [recompute_ec, latch_of_latched h.1, latch_of_latched h.2.1, latch_of_latched h.2.2]
  rfl

/-- Where the sources are latched, recompute on the SoC only drives the line. -/
theorem recompute_soc_of_latched {s : State} (h : SocLatched s) : recompute .soc s = settleSoc s := by
  rw [recompute_soc, latch_of_latched h.1, latch_of_latched h.2]
  rfl

/-- Where the line already follows the facets, settling it changes nothing. -/
theorem settleEc_of_line {s : State} (h : s.ec.line = ecRequests s) : settleEc s = s := by
  rw [settleEc, ← h]

/-- Where the line already follows the facets, settling it changes nothing. -/
theorem settleSoc_of_line {s : State} (h : s.soc.line = socRequests s) : settleSoc s = s := by
  rw [settleSoc, ← h]

/-- setStatus writes the status facet of one source and nothing else (R120). -/
theorem setStatus_eq (x : Source) (b : Bool) (s : State) :
    setStatus x b s = withSource x { sourceOf s x with status := b } s := by
  cases b <;> rfl

/-- Driving an EC source: its status and latch, its line, nothing else (R172). -/
theorem driven_latch (b : Bool) {e : EventSource} : latch { e with status := b } = driven b e := by
  rw [latch_eq]
  rfl

/-- An acknowledged bit that was set, after the clear and the latch (R106, R123). -/
theorem acknowledged_true (e : EventSource) : latch { e with pending := false } = acknowledged true e := by
  rw [latch_eq]
  simp [acknowledged]

/-- Where the mask bit is 0 the source is unchanged (R123). -/
theorem acknowledged_false (e : EventSource) : acknowledged false e = e := rfl

/-- A latched source whose pending bit is 0 is unchanged by an acknowledgment (R123). -/
theorem acknowledged_clear {e : EventSource} (h : Latched e) (hp : e.pending = false) (c : Bool) : acknowledged c e = e := by
  rcases e with ⟨_ | _, _ | _, _ | _⟩ <;> cases c <;> simp_all [acknowledged, Latched]

/-- A stored enable bit, after the latch (R125, R126). -/
theorem masked_latch (b : Bool) (e : EventSource) : latch { e with enable := b } = masked b e := by
  rw [latch_eq]
  rfl

theorem latched_acknowledged {e : EventSource} (h : Latched e) (c : Bool) : Latched (acknowledged c e) := by
  rcases e with ⟨_ | _, _ | _, _ | _⟩ <;> cases c <;> simp_all [acknowledged, Latched]

theorem latched_masked (b : Bool) (e : EventSource) : Latched (masked b e) := by
  rcases e with ⟨_ | _, _ | _, _ | _⟩ <;> cases b <;> simp [masked, Latched]

theorem latched_driven (b : Bool) (e : EventSource) : Latched (driven b e) := by
  rcases e with ⟨_ | _, _ | _, _ | _⟩ <;> cases b <;> simp [driven, Latched]

end Sys2Proof.Machine
end

