-- ==== Sys2Proof/Laws/Bank.lean ====
section
/-! SUPPORT. What the register bank's operations can do, said once: one field, then each register's read (40_register_bank.md). -/

namespace Sys2Proof.Machine

/-- A write of a read-only field does nothing (R105). -/
theorem fieldWrite_r {f : Field} (h : f.mode = .r) (w : Word) (s : State) : fieldWrite f w s = .ok s := by
  simp [fieldWrite, h]

/-- A write of a facet's EvPending bit: a set bit met by a 1 is cleared and the instance recomputed, anything else is nothing (R123). -/
theorem fieldWrite_pending (p : Inst) (x : Source) (w : Word) (s : State) :
    fieldWrite (facetField .rw1c .pending (.recompute p) x) w s =
      .ok (if w.getLsbD (sourceIndex x) && (sourceOf s x).pending
        then recompute p (withSource x { sourceOf s x with pending := false } s) else s) := by
  have hf : fieldOperand (facetField .rw1c .pending (.recompute p) x) w = bit (w.getLsbD (sourceIndex x)) :=
    fieldOperand_oneBit _ rfl w
  change (if fieldOperand (facetField .rw1c .pending (.recompute p) x) w = 1 ∧ bit (sourceOf s x).pending = 1
    then Except.ok (recompute p (withSource x { sourceOf s x with pending := (0 : Word).getLsbD 0 } s)) else .ok s) = _
  simp only [hf, bit_eq_one]
  cases w.getLsbD (sourceIndex x) <;> cases h : (sourceOf s x).pending <;>
    simp

/-- A write of a facet's EvEnable bit stores it and recomputes (R105, R121). -/
theorem fieldWrite_enable (p : Inst) (x : Source) (w : Word) (s : State) :
    fieldWrite (facetField .rw .enable (.recompute p) x) w s =
      .ok (recompute p (withSource x { sourceOf s x with enable := w.getLsbD (sourceIndex x) } s)) := by
  have hf : fieldOperand (facetField .rw .enable (.recompute p) x) w = bit (w.getLsbD (sourceIndex x)) :=
    fieldOperand_oneBit _ rfl w
  change Except.ok (recompute p (withSource x
    { sourceOf s x with enable := (fieldOperand (facetField .rw .enable (.recompute p) x) w).getLsbD 0 } s)) = _
  rw [hf, bit_getLsbD_zero]

/-- A one-bit field's value, at its place, has no other bit. -/
theorem bit_shift_getLsbD (b : Bool) (k j : Nat) (hk : k < 32) : ((bit b) <<< k).getLsbD j = (decide (j = k) && b) := by
  have hb : ∀ n : Nat, (bit b).getLsbD n = (decide (n = 0) && b) := by
    intro n
    rcases n with _ | n
    · simp
    · cases b <;> simp [bit]
  rw [BitVec.getLsbD_shiftLeft, hb]
  by_cases h : j = k
  · subst h; simp [hk]
  · by_cases h2 : j < k
    · simp [h2, h]
    · have : j - k ≠ 0 := by omega
      simp [this, h]

/-- EC Status, composed of its eight fields, is the backing word under their mask (R76, R162). -/
theorem readFields_ecStatus (s : State) :
    readFields .ec (([0, 1, 2, 3, 16, 17, 30, 31] : List Nat).map ecstatField) s = (s.ec.ecstat &&& ecstatMask, s) := by
  simp only [List.map, readFields, fieldRead, ecstatField, cellRead, Prod.mk.injEq, and_true]
  apply BitVec.eq_of_getLsbD_eq
  intro j hj
  simp only [BitVec.getLsbD_or, BitVec.getLsbD_and]
  repeat rw [bit_shift_getLsbD _ _ _ (by decide)]
  interval_cases j <;> simp [ecstatMask]

/-- An EC event register read is its three facets (R76). -/
theorem readFields_ecFacets (m : AccessMode) (hm : m ≠ .w) (f : Facet) (cb : Callback) (s : State) :
    readFields .ec ((sources .ec).map (facetField m f cb)) s =
      (bits3 (facetOf s.ec.spiAvail f) (facetOf s.ec.spiEvent f) (facetOf s.ec.spiErr f), s) := by
  have h : ∀ a b c : Bool, (bit a <<< 0) ||| ((bit b <<< 1) ||| ((bit c <<< 2) ||| 0)) = bits3 a b c := by decide
  cases m <;> first | exact absurd rfl hm | exact Prod.ext (h _ _ _) rfl

/-- A SoC event register read is its two facets (R76). -/
theorem readFields_socFacets (m : AccessMode) (hm : m ≠ .w) (f : Facet) (cb : Callback) (s : State) :
    readFields .soc ((sources .soc).map (facetField m f cb)) s =
      (bits2 (facetOf s.soc.spiInt f) (facetOf s.soc.spiHold f), s) := by
  have h : ∀ a b : Bool, (bit a <<< 0) ||| ((bit b <<< 1) ||| 0) = bits2 a b := by decide
  cases m <;> first | exact absurd rfl hm | exact Prod.ext (h _ _) rfl

/-- A read of one field moves the instance's count of draws at most (R104). -/
theorem fieldRead_state (p : Inst) (f : Field) (s : State) : ∃ n, (fieldRead p f s).2 = withReads p n s := by
  have h0 : ∃ n, s = withReads p n s := ⟨readsOf p s, by cases p <;> rfl⟩
  unfold fieldRead
  cases f.mode <;> first | exact h0 | skip
  cases s.params.woReadMode
  · exact ⟨_, rfl⟩
  · exact h0

/-- A read of any field list moves the instance's count of draws at most (R103). -/
theorem readFields_state (p : Inst) (fs : List Field) : ∀ s : State, ∃ n, (readFields p fs s).2 = withReads p n s := by
  induction fs with
  | nil => intro s; exact ⟨readsOf p s, by cases p <;> rfl⟩
  | cons f fs ih =>
    intro s
    obtain ⟨n, hn⟩ := fieldRead_state p f s
    obtain ⟨k, hk⟩ := ih (fieldRead p f s).2
    exact ⟨k, by simp only [readFields]; rw [hk, hn, withReads_withReads]⟩

/-- A bus read of a mapped register completes with a word, and only the instance's count of draws may move (R103). -/
theorem busRead_mapped {p : Inst} {off : Offset} {fs : List Field} (h : fields p off = some fs) (s : State) :
    ∃ n, busRead p off s = .next (respond (.rdata (readFields p fs s).1) (withReads p n s)) := by
  obtain ⟨n, hn⟩ := readFields_state p fs s
  exact ⟨n, by simp only [busRead, h, complete]; rw [hn]⟩

/-- The register bank has a register exactly at the mapped offsets (R51, R100). -/
theorem fields_isSome (p : Inst) (off : Offset) : (fields p off).isSome = mapped p off := by
  cases p <;> simp only [fields, mapped, mappedOffsets, List.contains_cons, List.contains_nil] <;>
    repeat (split; · subst_vars; rfl)
  all_goals simp_all

end Sys2Proof.Machine
end

