-- ==== Sys2Proof/Laws/PerInstr.lean ====
section
/-! SUPPORT. Facts about every operation as it is encoded, one lemma per constructor of Instr. -/

namespace Sys2Proof.Laws

/-- An operation's record carries the operation's format in its selector and names the operation's instance (R70, R71). -/
def EncodedFormat.Statement (i : Instr) : Prop := selKind (encode i).sel = i.kind ∧ (encode i).inst = i.inst

theorem EncodedFormat.ecRdControl : EncodedFormat.Statement (.ecRdControl) := ⟨selKind_selector _ _, rfl⟩
theorem EncodedFormat.ecWrControl (wdata : Word) : EncodedFormat.Statement (.ecWrControl wdata) := ⟨selKind_selector _ _, rfl⟩
theorem EncodedFormat.ecRdStatus : EncodedFormat.Statement (.ecRdStatus) := ⟨selKind_selector _ _, rfl⟩
theorem EncodedFormat.ecWrStatus (wdata : Word) : EncodedFormat.Statement (.ecWrStatus wdata) := ⟨selKind_selector _ _, rfl⟩
theorem EncodedFormat.ecRdEvStatus : EncodedFormat.Statement (.ecRdEvStatus) := ⟨selKind_selector _ _, rfl⟩
theorem EncodedFormat.ecWrEvStatus (wdata : Word) : EncodedFormat.Statement (.ecWrEvStatus wdata) := ⟨selKind_selector _ _, rfl⟩
theorem EncodedFormat.ecRdEvPending : EncodedFormat.Statement (.ecRdEvPending) := ⟨selKind_selector _ _, rfl⟩
theorem EncodedFormat.ecWrEvPending (wdata : Word) : EncodedFormat.Statement (.ecWrEvPending wdata) := ⟨selKind_selector _ _, rfl⟩
theorem EncodedFormat.ecRdEvEnable : EncodedFormat.Statement (.ecRdEvEnable) := ⟨selKind_selector _ _, rfl⟩
theorem EncodedFormat.ecWrEvEnable (wdata : Word) : EncodedFormat.Statement (.ecWrEvEnable wdata) := ⟨selKind_selector _ _, rfl⟩
theorem EncodedFormat.ecRdUnmapped (off : Offset) : EncodedFormat.Statement (.ecRdUnmapped off) := ⟨selKind_selector _ _, rfl⟩
theorem EncodedFormat.ecWrUnmapped (off : Offset) (wdata : Word) : EncodedFormat.Statement (.ecWrUnmapped off wdata) := ⟨selKind_selector _ _, rfl⟩
theorem EncodedFormat.ecRst : EncodedFormat.Statement (.ecRst) := ⟨selKind_selector _ _, rfl⟩
theorem EncodedFormat.ecEnvSetStatus (src : BitVec 2) (b : Bool) : EncodedFormat.Statement (.ecEnvSetStatus src b) := ⟨selKind_selector _ _, rfl⟩
theorem EncodedFormat.ecEnvXfer (b : Byte) : EncodedFormat.Statement (.ecEnvXfer b) := ⟨selKind_selector _ _, rfl⟩
theorem EncodedFormat.ecEnvEcstatSet (k : BitVec 5) (b : Bool) : EncodedFormat.Statement (.ecEnvEcstatSet k b) := ⟨selKind_selector _ _, rfl⟩
theorem EncodedFormat.socRdTx : EncodedFormat.Statement (.socRdTx) := ⟨selKind_selector _ _, rfl⟩
theorem EncodedFormat.socWrTx (wdata : Word) : EncodedFormat.Statement (.socWrTx wdata) := ⟨selKind_selector _ _, rfl⟩
theorem EncodedFormat.socRdRx : EncodedFormat.Statement (.socRdRx) := ⟨selKind_selector _ _, rfl⟩
theorem EncodedFormat.socWrRx (wdata : Word) : EncodedFormat.Statement (.socWrRx wdata) := ⟨selKind_selector _ _, rfl⟩
theorem EncodedFormat.socRdControl : EncodedFormat.Statement (.socRdControl) := ⟨selKind_selector _ _, rfl⟩
theorem EncodedFormat.socWrControl (wdata : Word) : EncodedFormat.Statement (.socWrControl wdata) := ⟨selKind_selector _ _, rfl⟩
theorem EncodedFormat.socRdStatus : EncodedFormat.Statement (.socRdStatus) := ⟨selKind_selector _ _, rfl⟩
theorem EncodedFormat.socWrStatus (wdata : Word) : EncodedFormat.Statement (.socWrStatus wdata) := ⟨selKind_selector _ _, rfl⟩
theorem EncodedFormat.socRdEvStatus : EncodedFormat.Statement (.socRdEvStatus) := ⟨selKind_selector _ _, rfl⟩
theorem EncodedFormat.socWrEvStatus (wdata : Word) : EncodedFormat.Statement (.socWrEvStatus wdata) := ⟨selKind_selector _ _, rfl⟩
theorem EncodedFormat.socRdEvPending : EncodedFormat.Statement (.socRdEvPending) := ⟨selKind_selector _ _, rfl⟩
theorem EncodedFormat.socWrEvPending (wdata : Word) : EncodedFormat.Statement (.socWrEvPending wdata) := ⟨selKind_selector _ _, rfl⟩
theorem EncodedFormat.socRdEvEnable : EncodedFormat.Statement (.socRdEvEnable) := ⟨selKind_selector _ _, rfl⟩
theorem EncodedFormat.socWrEvEnable (wdata : Word) : EncodedFormat.Statement (.socWrEvEnable wdata) := ⟨selKind_selector _ _, rfl⟩
theorem EncodedFormat.socRdUnmapped (off : Offset) : EncodedFormat.Statement (.socRdUnmapped off) := ⟨selKind_selector _ _, rfl⟩
theorem EncodedFormat.socWrUnmapped (off : Offset) (wdata : Word) : EncodedFormat.Statement (.socWrUnmapped off wdata) := ⟨selKind_selector _ _, rfl⟩
theorem EncodedFormat.socRst : EncodedFormat.Statement (.socRst) := ⟨selKind_selector _ _, rfl⟩
theorem EncodedFormat.socEnvHoldSet (level : Bool) : EncodedFormat.Statement (.socEnvHoldSet level) := ⟨selKind_selector _ _, rfl⟩
theorem EncodedFormat.socEnvSetStatus (b : Bool) : EncodedFormat.Statement (.socEnvSetStatus b) := ⟨selKind_selector _ _, rfl⟩
theorem EncodedFormat.socEnvAttach (d : Device) : EncodedFormat.Statement (.socEnvAttach d) := ⟨selKind_selector _ _, rfl⟩
theorem EncodedFormat.socEnvDetach : EncodedFormat.Statement (.socEnvDetach) := ⟨selKind_selector _ _, rfl⟩

end Sys2Proof.Laws
end

