-- ==== Sys2Proof/Laws/Transfer.lean ====
section
/-! SUPPORT. What the transfer engine can do, said once (42_transfer_engine.md). -/

namespace Sys2Proof.Machine

/-- One exchange: an answering device appends one byte pair, and moves nothing else but the count of its answers (R59). -/
theorem devXfer_ok {d : Device} (h : answers d = true) (b : Byte) (s : State) :
    ∃ r n, devXfer d b s = .ok (r, traceXfer b r (withReplies n s)) ∧
      (∀ a, namedAnswer s d b = some a → r = a) ∧ (d ≠ .unknown → n = s.draws.device) := by
  cases d with
  | unknown => exact ⟨_, s.draws.device + 1, rfl, by simp [namedAnswer], by simp⟩
  | echo1 =>
    refine ⟨b + 1, s.draws.device, rfl, ?_, by simp⟩
    intro a ha
    simp only [namedAnswer, Option.some.injEq] at ha
    rw [← ha]
    apply BitVec.eq_of_toNat_eq
    simp [BitVec.toNat_add]
  | ecStub => exact ⟨_, s.draws.device, rfl, by simp [namedAnswer, ecTransmit], by simp⟩
  | reentrant => exact absurd h (by decide)

/-- A re-entering device's exchange is refused (R59, R237). -/
theorem devXfer_reentrant (b : Byte) (s : State) : devXfer .reentrant b s = .error .reentrant := rfl

/-- The truncation step logs exactly a raw word above 16 bits (R140, R235). -/
theorem logTruncation_eq (w : Word) (s : State) :
    logTruncation w s = { s with soc := { s.soc with diag := s.soc.diag ++ truncationLog w } } := by
  have h : w.extractLsb' 16 16 = 0 ↔ w.toNat ≤ 0xFFFF := by
    rw [← BitVec.toNat_inj]
    have := w.isLt
    simp only [BitVec.extractLsb'_toNat, Nat.shiftRight_eq_div_pow]
    change _ = 0 ↔ _
    omega
  unfold logTruncation truncationLog logSoc
  by_cases hw : w.toNat ≤ 0xFFFF
  · rw [if_pos (h.2 hw), if_pos hw, List.append_nil]
  · rw [if_neg (mt h.1 hw), if_neg hw]

/-- The value sent is the low half of the raw word (R140). -/
theorem sentValue_eq (w : Word) : sentValue w = w.extractLsb' 0 16 := by
  apply BitVec.eq_of_getLsbD_eq
  intro i hi
  simp [sentValue, hi]

/-- The low byte sent is the low byte of the raw word (R141). -/
theorem lowByte_sentValue (w : Word) : lowByte (sentValue w) = w.extractLsb' 0 8 := by
  apply BitVec.eq_of_getLsbD_eq
  intro i hi
  have : i < 16 := by omega
  simp [sentValue, lowByte, hi, this]

/-- The high byte sent is the second byte of the raw word (R141). -/
theorem highByte_sentValue (w : Word) : highByte (sentValue w) = w.extractLsb' 8 8 := by
  apply BitVec.eq_of_getLsbD_eq
  intro i hi
  have : 8 + i < 16 := by omega
  simp [sentValue, highByte, hi, this]

/-- The exchange with an answering device: two pairs traced, low byte first, the receive value the two answers, TIP back at 0 (R141, R144). -/
theorem exchange_ok {d : Device} (h : answers d = true) (v : Half) (s : State) :
    ∃ r0 r1 n, exchange d v s = .ok { s with
        soc := { s.soc with rx := r1 ++ r0, tip := false, xfers := s.soc.xfers ++ [(lowByte v, r0), (highByte v, r1)] },
        draws := { s.draws with device := n } } ∧
      (∀ a, namedAnswer s d (lowByte v) = some a → r0 = a) ∧
      (∀ a, namedAnswer s d (highByte v) = some a → r1 = a) ∧ (d ≠ .unknown → n = s.draws.device) := by
  obtain ⟨r0, n0, h0, a0, e0⟩ := devXfer_ok h (lowByte v) (cellWrite .tip 1 s)
  obtain ⟨r1, n1, h1, a1, e1⟩ := devXfer_ok h (highByte v) (traceXfer (lowByte v) r0 (withReplies n0 (cellWrite .tip 1 s)))
  refine ⟨r0, r1, n1, ?_, ?_, ?_, ?_⟩
  · unfold exchange
    rw [h0]
    simp only []
    rw [h1]
    have hrx : ((r1 ++ r0 : BitVec (8 + 8)).setWidth 32).setWidth 16 = r1 ++ r0 := by
      apply BitVec.eq_of_getLsbD_eq
      intro i hi
      have : i < 16 := hi
      simp [this]
    have ht : (0 : Word).getLsbD 0 = false := by decide
    simp only [cellWrite, traceXfer, withReplies, Except.ok.injEq, ht, List.append_assoc, List.cons_append, List.nil_append]
    rw [hrx]
  · intro a ha; exact a0 a (by cases d <;> exact ha)
  · intro a ha; exact a1 a (by cases d <;> exact ha)
  · intro hd; rw [e1 hd]; exact e0 hd

/-- The finished interrupt leaves everything but the two sources and the line (R145). -/
theorem finishedInterrupt_eq (s : State) :
    finishedInterrupt s = if s.soc.intena then
      { s with soc := { s.soc with
        spiInt := { status := false, pending := s.soc.spiInt.pending || s.soc.spiInt.enable, enable := s.soc.spiInt.enable },
        spiHold := latch s.soc.spiHold,
        line := ((s.soc.spiInt.pending || s.soc.spiInt.enable) && s.soc.spiInt.enable) || requesting (latch s.soc.spiHold) } }
      else s := by
  unfold finishedInterrupt
  split
  · rw [setStatus_eq, setStatus_eq, recompute_soc]
    simp only [withSource, sourceOf, latch_eq, requesting, Bool.true_and]
  · rfl

/-- `send` with no device attached (R142). -/
theorem send_noDevice {s : State} (h : s.soc.device = none) (w : Word) :
    send w s = .ok { s with soc := { s.soc with
      diag := s.soc.diag ++ (truncationLog w ++ [.noDeviceAttached (w.extractLsb' 0 16)]) } } := by
  unfold send
  rw [logTruncation_eq]
  simp [h, logSoc, sentValue_eq]

/-- `send` blocked by hold (R143). -/
theorem send_held {s : State} {d : Device} (h : s.soc.device = some d) (ha : s.soc.autohold = true) (hh : s.soc.holdIn = true)
    (w : Word) : send w s = .ok { s with soc := { s.soc with
      diag := s.soc.diag ++ (truncationLog w ++ [.holdAsserted (w.extractLsb' 0 16)]) } } := by
  unfold send
  rw [logTruncation_eq]
  simp [h, ha, hh, logSoc, sentValue_eq]

/-- `send` where the transfer runs: the truncation log, the exchange, the finished interrupt (R140). -/
theorem send_runs {s : State} {d : Device} (h : s.soc.device = some d) (hb : (s.soc.autohold && s.soc.holdIn) = false)
    (w : Word) : send w s =
      match exchange d (sentValue w) { s with soc := { s.soc with diag := s.soc.diag ++ truncationLog w } } with
      | .error e => .error e
      | .ok t => .ok (finishedInterrupt t) := by
  unfold send
  rw [logTruncation_eq]
  simp only [h, hb]
  rfl

end Sys2Proof.Machine
end

