-- ==== Sys2Proof/Laws/Step.lean ====
section
/-! SUPPORT. What one operation can do, said once: the inversion of exec, and what the shared updates leave alone. -/

namespace Sys2Proof.Machine

/-- One bit of an EvPending write: a set pending bit met by a 1 is cleared and the instance recomputed (R105, R123). -/
def ackSource (p : Inst) (x : Source) (w : Word) (s : State) : State :=
  if w.getLsbD (sourceIndex x) && (sourceOf s x).pending then
    recompute p (withSource x { sourceOf s x with pending := false } s)
  else s

/-- One bit of an EvEnable write: the enable bit is stored and the instance recomputed (R105). -/
def enableSource (p : Inst) (x : Source) (w : Word) (s : State) : State :=
  recompute p (withSource x { sourceOf s x with enable := w.getLsbD (sourceIndex x) } s)

/-- A step with a request at the head of the queue, in any of the three forms: its record is resolved, decoded and run. -/
theorem step_request {s : State} {q : Request} {rest : List Request} (h : s.requests = q :: rest) :
    step s =
      match q.resolve s.params with
      | .error e => .refused (refusalOf e)
      | .ok r =>
        match decode s.params.holdStatusMode r with
        | .error e => .refused (refusalOf e)
        | .ok i => exec i { s with requests := rest, count := s.count + 1 } := by
  simp only [step, fetch, h, takeRequest, List.tail]
  cases q.resolve s.params with
  | error e => rfl
  | ok r => cases hd : decode s.params.holdStatusMode r <;> simp only [hd]

/-- A bus read of a mapped register completes with some word. -/
theorem busRead_next {p : Inst} {off : Offset} {fs : List Field} (h : fields p off = some fs) (s : State) :
    ∃ n w, busRead p off s = .next (respond (.rdata w) (withReads p n s)) := by
  obtain ⟨n, hn⟩ := busRead_mapped h s
  exact ⟨n, _, hn⟩

@[simp] theorem recompute_params (p : Inst) (s : State) : (recompute p s).params = s.params := by cases p <;> rfl

@[simp] theorem recompute_requests (p : Inst) (s : State) : (recompute p s).requests = s.requests := by cases p <;> rfl

@[simp] theorem recompute_count (p : Inst) (s : State) : (recompute p s).count = s.count := by cases p <;> rfl

@[simp] theorem recompute_draws (p : Inst) (s : State) : (recompute p s).draws = s.draws := by cases p <;> rfl

@[simp] theorem recompute_result (p : Inst) (s : State) : (recompute p s).result = s.result := by cases p <;> rfl

@[simp] theorem recompute_ec_soc (s : State) : (recompute .ec s).soc = s.soc := rfl

@[simp] theorem recompute_soc_ec (s : State) : (recompute .soc s).ec = s.ec := rfl

@[simp] theorem recompute_ec_ecstat (s : State) : (recompute .ec s).ec.ecstat = s.ec.ecstat := rfl

@[simp] theorem recompute_ec_diag (s : State) : (recompute .ec s).ec.diag = s.ec.diag := rfl

@[simp] theorem recompute_soc_rx (s : State) : (recompute .soc s).soc.rx = s.soc.rx := rfl

@[simp] theorem recompute_soc_intena (s : State) : (recompute .soc s).soc.intena = s.soc.intena := rfl

@[simp] theorem recompute_soc_autohold (s : State) : (recompute .soc s).soc.autohold = s.soc.autohold := rfl

@[simp] theorem recompute_soc_tip (s : State) : (recompute .soc s).soc.tip = s.soc.tip := rfl

@[simp] theorem recompute_soc_holdIn (s : State) : (recompute .soc s).soc.holdIn = s.soc.holdIn := rfl

@[simp] theorem recompute_soc_device (s : State) : (recompute .soc s).soc.device = s.soc.device := rfl

@[simp] theorem recompute_soc_diag (s : State) : (recompute .soc s).soc.diag = s.soc.diag := rfl

@[simp] theorem recompute_soc_xfers (s : State) : (recompute .soc s).soc.xfers = s.soc.xfers := rfl

/-- One bit of an EvPending write of the EC: what it leaves alone. -/
theorem ackSource_ec_frame {x : Source} (h : sourceInst x = .ec) (w : Word) (s : State) :
    (ackSource .ec x w s).soc = s.soc ∧
    (ackSource .ec x w s).params = s.params ∧
    (ackSource .ec x w s).requests = s.requests ∧
    (ackSource .ec x w s).count = s.count ∧
    (ackSource .ec x w s).draws = s.draws ∧
    (ackSource .ec x w s).ec.ecstat = s.ec.ecstat ∧
    (ackSource .ec x w s).ec.diag = s.ec.diag := by
  unfold ackSource
  split
  · cases x <;> first | exact ⟨rfl, rfl, rfl, rfl, rfl, rfl, rfl⟩ | exact absurd h (by decide)
  · exact ⟨rfl, rfl, rfl, rfl, rfl, rfl, rfl⟩

/-- One bit of an EvEnable write of the EC: what it leaves alone. -/
theorem enableSource_ec_frame {x : Source} (h : sourceInst x = .ec) (w : Word) (s : State) :
    (enableSource .ec x w s).soc = s.soc ∧
    (enableSource .ec x w s).params = s.params ∧
    (enableSource .ec x w s).requests = s.requests ∧
    (enableSource .ec x w s).count = s.count ∧
    (enableSource .ec x w s).draws = s.draws ∧
    (enableSource .ec x w s).ec.ecstat = s.ec.ecstat ∧
    (enableSource .ec x w s).ec.diag = s.ec.diag := by
  cases x <;> first | exact ⟨rfl, rfl, rfl, rfl, rfl, rfl, rfl⟩ | exact absurd h (by decide)

/-- Driving a status of the EC: what it leaves alone. -/
theorem driveStatus_ec_frame {x : Source} (h : sourceInst x = .ec) (b : Bool) (s : State) :
    (driveStatus x b s).soc = s.soc ∧
    (driveStatus x b s).params = s.params ∧
    (driveStatus x b s).requests = s.requests ∧
    (driveStatus x b s).count = s.count ∧
    (driveStatus x b s).draws = s.draws ∧
    (driveStatus x b s).ec.ecstat = s.ec.ecstat ∧
    (driveStatus x b s).ec.diag = s.ec.diag := by
  rw [driveStatus, setStatus_eq]
  cases x <;> first | exact ⟨rfl, rfl, rfl, rfl, rfl, rfl, rfl⟩ | exact absurd h (by decide)

/-- One bit of an EvPending write of the SOC: what it leaves alone. -/
theorem ackSource_soc_frame {x : Source} (h : sourceInst x = .soc) (w : Word) (s : State) :
    (ackSource .soc x w s).ec = s.ec ∧
    (ackSource .soc x w s).params = s.params ∧
    (ackSource .soc x w s).requests = s.requests ∧
    (ackSource .soc x w s).count = s.count ∧
    (ackSource .soc x w s).draws = s.draws ∧
    (ackSource .soc x w s).soc.rx = s.soc.rx ∧
    (ackSource .soc x w s).soc.intena = s.soc.intena ∧
    (ackSource .soc x w s).soc.autohold = s.soc.autohold ∧
    (ackSource .soc x w s).soc.tip = s.soc.tip ∧
    (ackSource .soc x w s).soc.holdIn = s.soc.holdIn ∧
    (ackSource .soc x w s).soc.device = s.soc.device ∧
    (ackSource .soc x w s).soc.diag = s.soc.diag ∧
    (ackSource .soc x w s).soc.xfers = s.soc.xfers := by
  unfold ackSource
  split
  · cases x <;> first | exact ⟨rfl, rfl, rfl, rfl, rfl, rfl, rfl, rfl, rfl, rfl, rfl, rfl, rfl⟩ | exact absurd h (by decide)
  · exact ⟨rfl, rfl, rfl, rfl, rfl, rfl, rfl, rfl, rfl, rfl, rfl, rfl, rfl⟩

/-- One bit of an EvEnable write of the SOC: what it leaves alone. -/
theorem enableSource_soc_frame {x : Source} (h : sourceInst x = .soc) (w : Word) (s : State) :
    (enableSource .soc x w s).ec = s.ec ∧
    (enableSource .soc x w s).params = s.params ∧
    (enableSource .soc x w s).requests = s.requests ∧
    (enableSource .soc x w s).count = s.count ∧
    (enableSource .soc x w s).draws = s.draws ∧
    (enableSource .soc x w s).soc.rx = s.soc.rx ∧
    (enableSource .soc x w s).soc.intena = s.soc.intena ∧
    (enableSource .soc x w s).soc.autohold = s.soc.autohold ∧
    (enableSource .soc x w s).soc.tip = s.soc.tip ∧
    (enableSource .soc x w s).soc.holdIn = s.soc.holdIn ∧
    (enableSource .soc x w s).soc.device = s.soc.device ∧
    (enableSource .soc x w s).soc.diag = s.soc.diag ∧
    (enableSource .soc x w s).soc.xfers = s.soc.xfers := by
  cases x <;> first | exact ⟨rfl, rfl, rfl, rfl, rfl, rfl, rfl, rfl, rfl, rfl, rfl, rfl, rfl⟩ | exact absurd h (by decide)

/-- Driving a status of the SOC: what it leaves alone. -/
theorem driveStatus_soc_frame {x : Source} (h : sourceInst x = .soc) (b : Bool) (s : State) :
    (driveStatus x b s).ec = s.ec ∧
    (driveStatus x b s).params = s.params ∧
    (driveStatus x b s).requests = s.requests ∧
    (driveStatus x b s).count = s.count ∧
    (driveStatus x b s).draws = s.draws ∧
    (driveStatus x b s).soc.rx = s.soc.rx ∧
    (driveStatus x b s).soc.intena = s.soc.intena ∧
    (driveStatus x b s).soc.autohold = s.soc.autohold ∧
    (driveStatus x b s).soc.tip = s.soc.tip ∧
    (driveStatus x b s).soc.holdIn = s.soc.holdIn ∧
    (driveStatus x b s).soc.device = s.soc.device ∧
    (driveStatus x b s).soc.diag = s.soc.diag ∧
    (driveStatus x b s).soc.xfers = s.soc.xfers := by
  rw [driveStatus, setStatus_eq]
  cases x <;> first | exact ⟨rfl, rfl, rfl, rfl, rfl, rfl, rfl, rfl, rfl, rfl, rfl, rfl, rfl⟩ | exact absurd h (by decide)

/-- Everything an operation that completes can do: one constructor per shape of effect, indexed by the operation and its next state. -/
inductive Effect (s : State) : Instr → State → Prop
  /-- A read returns a word; only its own instance's count of draws may move (R103). -/
  | read (i n w) : i.kind = .rd → Effect s i { s with draws := (withReads i.inst n s).draws, result := .rdata w }
  /-- A write to a read-only register or to EC Control does nothing (R105, R161). -/
  | ack (i) : i.kind = .wr → (∀ w, i ≠ .socWrTx w) → Effect s i (respond .ack s)
  /-- A write of EC EvPending visits its three bits in order (R167). -/
  | ecAck (w) : Effect s (.ecWrEvPending w) (respond .ack (ackSource .ec .spiErr w (ackSource .ec .spiEvent w (ackSource .ec .spiAvail w s))))
  /-- A write of EC EvEnable visits its three bits in order (R169). -/
  | ecEn (w) : Effect s (.ecWrEvEnable w) (respond .ack (enableSource .ec .spiErr w (enableSource .ec .spiEvent w (enableSource .ec .spiAvail w s))))
  /-- A write of SoC EvPending visits its two bits in order (R201). -/
  | socAck (w) : Effect s (.socWrEvPending w) (respond .ack (ackSource .soc .spiHold w (ackSource .soc .spiInt w s)))
  /-- A write of SoC EvEnable visits its two bits in order (R203). -/
  | socEn (w) : Effect s (.socWrEvEnable w) (respond .ack (enableSource .soc .spiHold w (enableSource .soc .spiInt w s)))
  /-- A write of SoC Control stores INTENA and AUTOHOLD (R195). -/
  | socCtl (w) : Effect s (.socWrControl w) { s with soc := { s.soc with intena := w.getLsbD 0, autohold := w.getLsbD 1 }, result := .ack }
  /-- Reset of the EC (R175). -/
  | ecRst : Effect s .ecRst (respond .ack (resetInst .ec s))
  /-- Reset of the SoC (R206). -/
  | socRst : Effect s .socRst (respond .ack (resetInst .soc s))
  /-- An EC status driver (R172). -/
  | ecSet (k b x) : ecSource k = some x → Effect s (.ecEnvSetStatus k b) (respond .ack (driveStatus x b s))
  /-- The EC stub answers its sentinel (R174). -/
  | xfer (b) : Effect s (.ecEnvXfer b) (respond (.byte s.params.ecSentinel) s)
  /-- An EC Status field is driven (R173). -/
  | ecstat (k b) : isEcstatPosition k = true → Effect s (.ecEnvEcstatSet k b) (respond .ack { s with ec := { s.ec with ecstat := withBit s.ec.ecstat k.toNat b } })
  /-- The hold input in Environment mode (R207). -/
  | holdE (l) : s.params.holdStatusMode = .environment → Effect s (.socEnvHoldSet l) (respond .ack (withHold l s))
  /-- The hold input in Coupled mode (R207, R209). -/
  | holdC (l) : s.params.holdStatusMode = .coupled → Effect s (.socEnvHoldSet l) (respond .ack (driveStatus .spiHold l (withHold l s)))
  /-- The SPI_HOLD status driver (R208). -/
  | socSet (b) : s.params.holdStatusMode = .environment → Effect s (.socEnvSetStatus b) (respond .ack (driveStatus .spiHold b s))
  /-- ATTACH (R210). -/
  | att (d) : Effect s (.socEnvAttach d) (respond .ack (withDevice (some d) s))
  /-- DETACH (R211). -/
  | det : Effect s (.socEnvDetach) (respond .ack (withDevice none s))
  /-- A Tx write that aborts only logs (R142, R143). -/
  | txAbort (w l) : transferRuns s = false → l = truncationLog w ++ abortLog (w.extractLsb' 0 16) s → Effect s (.socWrTx w) (respond .ack { s with soc := { s.soc with diag := s.soc.diag ++ l } })
  /-- A Tx write that runs (R140). -/
  | tx (w d r0 r1 n) : s.soc.device = some d → d ≠ .reentrant → transferRuns s = true → (s.soc.device ≠ some .unknown → n = s.draws.device) → Effect s (.socWrTx w) (respond .ack (finishedInterrupt { s with
        soc := { s.soc with rx := r1 ++ r0, tip := false, diag := s.soc.diag ++ truncationLog w, xfers := s.soc.xfers ++ [(w.extractLsb' 0 8, r0), (w.extractLsb' 8 8, r1)] }
        draws := { s.draws with device := n } }))

theorem exec_effect {i s t} (h : exec i s = .next t) : Effect s i t := by
  cases i
  case socWrTx w =>
    have hf : fields .soc 0x000 = some [⟨0, 16, .w, .unbacked, .send⟩] := rfl
    simp only [exec, execSocWrTx, busWrite, hf, writeFields, fieldWrite, runCallback] at h
    cases hd : s.soc.device with
    | none =>
      rw [send_noDevice hd] at h; cases h
      exact .txAbort _ _ (by simp [transferRuns, hd]) (by simp [abortLog, hd])
    | some d =>
      cases hb : (s.soc.autohold && s.soc.holdIn)
      · rw [send_runs hd hb] at h
        cases ha : answers d
        · cases d <;> simp [answers] at ha
          simp only [exchange, devXfer_reentrant] at h
          cases h
        · obtain ⟨r0, r1, n, he, a0, a1, hn⟩ := exchange_ok ha (sentValue w) { s with soc := { s.soc with diag := s.soc.diag ++ truncationLog w } }
          rw [lowByte_sentValue, highByte_sentValue] at he
          simp only [he] at h
          cases h
          refine .tx w d r0 r1 n hd ?_ (by simp only [transferRuns, hd, hb]; rfl) ?_
          · rintro rfl; simp [answers] at ha
          · intro hne; exact hn (by rintro rfl; exact hne hd)
      · simp only [Bool.and_eq_true] at hb
        rw [send_held hd hb.1 hb.2] at h; cases h
        exact .txAbort _ _ (by simp [transferRuns, hd, hb]) (by simp [abortLog, hd, hb])
  case ecWrEvPending w =>
    simp only [exec, execEcWrEvPending, busWrite, show fields .ec 0x00C = some (evPendingFields .ec) from rfl, evPendingFields, sources, List.map, writeFields, fieldWrite_pending] at h
    cases h; exact .ecAck w
  case socWrEvPending w =>
    simp only [exec, execSocWrEvPending, busWrite, show fields .soc 0x014 = some (evPendingFields .soc) from rfl, evPendingFields, sources, List.map, writeFields, fieldWrite_pending] at h
    cases h; exact .socAck w
  case ecWrEvEnable w =>
    simp only [exec, execEcWrEvEnable, busWrite, show fields .ec 0x010 = some (evEnableFields .ec) from rfl, evEnableFields, sources, List.map, writeFields, fieldWrite_enable] at h
    cases h; exact .ecEn w
  case socWrEvEnable w =>
    simp only [exec, execSocWrEvEnable, busWrite, show fields .soc 0x018 = some (evEnableFields .soc) from rfl, evEnableFields, sources, List.map, writeFields, fieldWrite_enable] at h
    cases h; exact .socEn w
  case socWrControl w =>
    have hf : ∀ k, fieldOperand ⟨k, 1, .rw, .intena, .none⟩ w = bit (w.getLsbD k) := fun k => fieldOperand_oneBit _ rfl w
    have hf' : ∀ k, fieldOperand ⟨k, 1, .rw, .autohold, .none⟩ w = bit (w.getLsbD k) := fun k => fieldOperand_oneBit _ rfl w
    simp only [exec, execSocWrControl, busWrite, show fields .soc 0x008 = some [⟨0, 1, .rw, .intena, .none⟩, ⟨1, 1, .rw, .autohold, .none⟩] from rfl, writeFields, fieldWrite, hf, hf', runCallback, cellWrite, bit_getLsbD_zero] at h
    cases h; exact .socCtl w
  case ecEnvSetStatus k b =>
    simp only [exec, execEcEnvSetStatus] at h
    split at h <;> cases h
    exact .ecSet _ _ _ ‹_›
  case ecEnvEcstatSet k b =>
    simp only [exec, execEcEnvEcstatSet] at h
    split at h <;> cases h
    simp only [cellWrite, bit_getLsbD_zero]
    exact .ecstat _ _ ‹_›
  case socEnvHoldSet k =>
    simp only [exec, execSocEnvHoldSet] at h
    split at h <;> cases h
    · exact .holdE _ ‹_›
    · exact .holdC _ ‹_›
  case socEnvSetStatus k =>
    simp only [exec, execSocEnvSetStatus] at h
    split at h <;> cases h
    · exact .socSet _ ‹_›
  case ecRst => cases h; exact .ecRst
  case socRst => cases h; exact .socRst
  case ecEnvXfer => cases h; exact .xfer _
  case socEnvAttach => cases h; exact .att _
  case socEnvDetach => cases h; exact .det
  case ecRdUnmapped => cases h
  case ecWrUnmapped => cases h
  case socRdUnmapped => cases h
  case socWrUnmapped => cases h
  case ecWrControl w => cases h; exact .ack _ rfl (by simp)
  case ecWrStatus w => cases h; exact .ack _ rfl (by simp)
  case ecWrEvStatus w => cases h; exact .ack _ rfl (by simp)
  case socWrRx w => cases h; exact .ack _ rfl (by simp)
  case socWrStatus w => cases h; exact .ack _ rfl (by simp)
  case socWrEvStatus w => cases h; exact .ack _ rfl (by simp)
  case ecRdControl =>
    obtain ⟨n, w, hn⟩ := busRead_next (p := .ec) (off := 0) rfl s
    cases hn.symm.trans h
    exact .read _ _ _ rfl
  case ecRdStatus =>
    obtain ⟨n, w, hn⟩ := busRead_next (p := .ec) (off := 4) rfl s
    cases hn.symm.trans h
    exact .read _ _ _ rfl
  case ecRdEvStatus =>
    obtain ⟨n, w, hn⟩ := busRead_next (p := .ec) (off := 8) rfl s
    cases hn.symm.trans h
    exact .read _ _ _ rfl
  case ecRdEvPending =>
    obtain ⟨n, w, hn⟩ := busRead_next (p := .ec) (off := 12) rfl s
    cases hn.symm.trans h
    exact .read _ _ _ rfl
  case ecRdEvEnable =>
    obtain ⟨n, w, hn⟩ := busRead_next (p := .ec) (off := 16) rfl s
    cases hn.symm.trans h
    exact .read _ _ _ rfl
  case socRdTx =>
    obtain ⟨n, w, hn⟩ := busRead_next (p := .soc) (off := 0) rfl s
    cases hn.symm.trans h
    exact .read _ _ _ rfl
  case socRdRx =>
    obtain ⟨n, w, hn⟩ := busRead_next (p := .soc) (off := 4) rfl s
    cases hn.symm.trans h
    exact .read _ _ _ rfl
  case socRdControl =>
    obtain ⟨n, w, hn⟩ := busRead_next (p := .soc) (off := 8) rfl s
    cases hn.symm.trans h
    exact .read _ _ _ rfl
  case socRdStatus =>
    obtain ⟨n, w, hn⟩ := busRead_next (p := .soc) (off := 12) rfl s
    cases hn.symm.trans h
    exact .read _ _ _ rfl
  case socRdEvStatus =>
    obtain ⟨n, w, hn⟩ := busRead_next (p := .soc) (off := 16) rfl s
    cases hn.symm.trans h
    exact .read _ _ _ rfl
  case socRdEvPending =>
    obtain ⟨n, w, hn⟩ := busRead_next (p := .soc) (off := 20) rfl s
    cases hn.symm.trans h
    exact .read _ _ _ rfl
  case socRdEvEnable =>
    obtain ⟨n, w, hn⟩ := busRead_next (p := .soc) (off := 24) rfl s
    cases hn.symm.trans h
    exact .read _ _ _ rfl


end Sys2Proof.Machine
end

