-- ==== Sys2Proof/Laws/Separate.lean ====
section
/-! SUPPORT. An operation reads and writes its own instance only, said once (20_memory.md R62, 10_state.md R46): run on a state whose
other instance is any other, it does the same. -/

namespace Sys2Proof.Machine

/-- `t` with an instance, and the counts of the free values drawn for it, as they are in `s`. -/
def graft (p : Inst) (s t : State) : State :=
  match p with
  | .ec => { t with ec := s.ec, draws := { t.draws with ec := s.draws.ec } }
  | .soc => { t with soc := s.soc, draws := { t.draws with soc := s.draws.soc, device := s.draws.device } }

/-- An outcome with its next state changed by `f`. -/
def onNext (f : State → State) (o : Host.Outcome State Fault Refusal) : Host.Outcome State Fault Refusal :=
  match o with
  | .next s => .next (f s)
  | .fault r => .fault r
  | .refused r => .refused r

/-- One bit of an EvPending write is local. -/
theorem ackSource_graft {p : Inst} {x : Source} (h : sourceInst x = p) (w : Word) (s t : State) :
    ackSource p x w (graft p s t) = graft p (ackSource p x w s) t := by
  subst h
  have hs : sourceOf (graft (sourceInst x) s t) x = sourceOf s x := by cases x <;> rfl
  unfold ackSource
  rw [hs]
  split
  · cases x <;> rfl
  · rfl

/-- One bit of an EvEnable write is local. -/
theorem enableSource_graft {p : Inst} {x : Source} (h : sourceInst x = p) (w : Word) (s t : State) :
    enableSource p x w (graft p s t) = graft p (enableSource p x w s) t := by
  subst h
  cases x <;> rfl

/-- Driving a status is local. -/
theorem driveStatus_graft {p : Inst} {x : Source} (h : sourceInst x = p) (b : Bool) (s t : State) :
    driveStatus x b (graft p s t) = graft p (driveStatus x b s) t := by
  subst h
  cases x <;> rfl

/-- A device answers the same whatever the EC is (R59, R174). -/
theorem devXfer_graft (d : Device) (b : Byte) {s t : State} (hp : s.params = t.params) :
    devXfer d b (graft .soc s t) =
      match devXfer d b s with
      | .ok (r, u) => .ok (r, graft .soc u t)
      | .error e => .error e := by
  cases d <;> first | rfl | (simp only [devXfer, deviceAnswer, ecTransmit, graft, hp]; rfl)

/-- A write of EC EvPending visits its three bits in order (R167). -/
theorem exec_ecWrEvPending (w : Word) (s : State) : exec (.ecWrEvPending w) s =
    complete .ack (ackSource .ec .spiErr w (ackSource .ec .spiEvent w (ackSource .ec .spiAvail w s))) := by
  simp only [exec, execEcWrEvPending, busWrite, show fields .ec 0x00C = some (evPendingFields .ec) from rfl, evPendingFields,
    sources, List.map, writeFields, fieldWrite_pending]
  rfl

/-- A write of SoC EvPending visits its two bits in order (R201). -/
theorem exec_socWrEvPending (w : Word) (s : State) : exec (.socWrEvPending w) s =
    complete .ack (ackSource .soc .spiHold w (ackSource .soc .spiInt w s)) := by
  simp only [exec, execSocWrEvPending, busWrite, show fields .soc 0x014 = some (evPendingFields .soc) from rfl, evPendingFields,
    sources, List.map, writeFields, fieldWrite_pending]
  rfl

/-- An exchange does not change the parameters. -/
theorem devXfer_params {d : Device} {b r : Byte} {s u : State} (h : devXfer d b s = .ok (r, u)) : u.params = s.params := by
  cases d <;> cases h <;> rfl

/-- The two exchanges are local (R141, R144). -/
theorem exchange_graft (d : Device) (v : Half) {s t : State} (hp : s.params = t.params) :
    exchange d v (graft .soc s t) =
      match exchange d v s with
      | .ok u => .ok (graft .soc u t)
      | .error e => .error e := by
  unfold exchange
  rw [show cellWrite .tip 1 (graft .soc s t) = graft .soc (cellWrite .tip 1 s) t from rfl,
    devXfer_graft d _ (s := cellWrite .tip 1 s) hp]
  cases h : devXfer d (lowByte v) (cellWrite .tip 1 s) with
  | error e => rfl
  | ok ru =>
    obtain ⟨r0, u⟩ := ru
    have hu : u.params = t.params := (devXfer_params h).trans hp
    simp only []
    rw [devXfer_graft d _ hu]
    cases devXfer d (highByte v) u <;> rfl

/-- The finished interrupt is local (R145). -/
theorem finishedInterrupt_graft (s t : State) : finishedInterrupt (graft .soc s t) = graft .soc (finishedInterrupt s) t := by
  unfold finishedInterrupt
  by_cases h : s.soc.intena = true
  · rw [if_pos h, if_pos (show (graft .soc s t).soc.intena = true from h)]; rfl
  · rw [if_neg h, if_neg (show ¬(graft .soc s t).soc.intena = true from h)]

/-- `send` is local (R140). -/
theorem send_graft (w : Word) {s t : State} (hp : s.params = t.params) :
    send w (graft .soc s t) =
      match send w s with
      | .ok u => .ok (graft .soc u t)
      | .error e => .error e := by
  unfold send
  rw [logTruncation_eq, logTruncation_eq]
  simp only [show (graft .soc s t).soc = s.soc from rfl]
  cases s.soc.device with
  | none => rfl
  | some d =>
    simp only []
    split
    · rfl
    · have he := exchange_graft d (sentValue w)
        (s := { s with soc := { s.soc with device := some d, diag := s.soc.diag ++ truncationLog w } }) (t := t) hp
      refine Eq.trans (congrArg (fun o : Except Refusal State =>
        match o with
        | .error e => Except.error e
        | .ok u => .ok (finishedInterrupt u)) he) ?_
      cases exchange d (sentValue w) { s with soc := { s.soc with device := some d, diag := s.soc.diag ++ truncationLog w } } with
      | error e => rfl
      | ok u => exact congrArg Except.ok (finishedInterrupt_graft u t)

/-- An operation does the same whatever the other instance is, and leaves the other instance alone (R62). -/
theorem exec_graft (i : Instr) {s t : State} (hp : s.params = t.params) :
    exec i (graft i.inst s t) = onNext (fun u => { graft i.inst u t with result := u.result }) (exec i s) := by
  cases i
  case socWrTx w =>
    have hf : fields .soc 0x000 = some [⟨0, 16, .w, .unbacked, .send⟩] := rfl
    simp only [exec, execSocWrTx, busWrite, hf, writeFields, fieldWrite, runCallback, Instr.inst]
    rw [send_graft w hp]
    cases send w s <;> rfl
  case ecWrEvPending w =>
    rw [exec_ecWrEvPending, exec_ecWrEvPending, Instr.inst, ackSource_graft (p := .ec) (x := .spiAvail) rfl,
      ackSource_graft (p := .ec) (x := .spiEvent) rfl, ackSource_graft (p := .ec) (x := .spiErr) rfl]
    rfl
  case socWrEvPending w =>
    rw [exec_socWrEvPending, exec_socWrEvPending, Instr.inst, ackSource_graft (p := .soc) (x := .spiInt) rfl,
      ackSource_graft (p := .soc) (x := .spiHold) rfl]
    rfl
  case ecEnvSetStatus k b =>
    simp only [exec, execEcEnvSetStatus, Instr.inst]
    cases hx : ecSource k with
    | none => rfl
    | some x =>
      have hi : sourceInst x = .ec := by
        simp only [ecSource] at hx
        (repeat' split at hx) <;> cases hx <;> rfl
      simp only []
      rw [driveStatus_graft hi]
      rfl
  case ecEnvEcstatSet k b =>
    simp only [exec, execEcEnvEcstatSet, Instr.inst]
    split <;> rfl
  case socEnvHoldSet l =>
    simp only [exec, execSocEnvHoldSet, Instr.inst, show (graft .soc s t).params = s.params from hp.symm]
    cases s.params.holdStatusMode <;> rfl
  case socEnvSetStatus b =>
    simp only [exec, execSocEnvSetStatus, Instr.inst, show (graft .soc s t).params = s.params from hp.symm]
    cases s.params.holdStatusMode <;> rfl
  case ecEnvXfer b =>
    exact congrArg (fun q : Params => complete (.byte q.ecSentinel) (graft .ec s t)) hp.symm
  case ecRdControl =>
    simp only [exec, execEcRdControl, busRead, readFields, fieldRead, placeholderField, Instr.inst,
      show fields .ec 0x000 = some [placeholderField 0, placeholderField 1, placeholderField 2] from rfl,
      show (graft .ec s t).params = s.params from hp.symm]
    cases h : s.params.woReadMode <;>
      simp only [drawBits, withReads, readsOf, h, hp ▸ h, graft, complete, respond, onNext]
  case socRdTx =>
    simp only [exec, execSocRdTx, busRead, readFields, fieldRead, Instr.inst,
      show fields .soc 0x000 = some [⟨0, 16, .w, .unbacked, .send⟩] from rfl,
      show (graft .soc s t).params = s.params from hp.symm]
    cases s.params.woReadMode <;> rfl
  all_goals rfl

end Sys2Proof.Machine
end

