-- ==== Sys2Proof/Tests/Slice0.lean ====
section
/-! SUPPORT. Tests: the encoding words of 30_encoding.md, worked vectors of 95_test_vectors.md (their numbers stand in the
docstrings), and a witness for the hypotheses of every statement that has some. -/

namespace Sys2Proof.Tests

open Sys2Proof.Machine

/-! The states the tests start from -/

/-- The parameters of 95_test_vectors.md: WO_READ_MODE Zero, the sentinel 0x5A of its program P6. -/
def params (mode : HoldStatusMode) : Params :=
  ⟨0x10000, 0x11000, 0x5A, .zero, mode, false, none⟩

/-- "RESET" of 95_test_vectors.md. -/
def start (mode : HoldStatusMode) : State := State.construct (params mode)

/-- A start with an EC instance. -/
def withEc (e : EcState) : State := { start .environment with ec := e }

/-- A start with a SoC instance. -/
def withSoc (e : SocState) : State := { start .environment with soc := e }

/-- A busy EC: SPI_EVENT asserted, enabled and latched; SPI_ERR latched and masked. -/
def busyEc : State := withEc ⟨0xC003000F, quietSource, ⟨true, true, true⟩, ⟨true, true, false⟩, true, []⟩

/-- A busy SoC: both sources latched and enabled, SPI_HOLD asserted, both control bits and the hold input 1. -/
def busySoc : State :=
  withSoc ⟨0x1335, true, true, false, ⟨false, true, true⟩, ⟨true, true, true⟩, true, true, some .echo1, [], []⟩

/-- SoC RESET with a device (L2.5). -/
def attached (d : Device) : State := withSoc { constructSoc (params .environment) with device := some d }

/-- An unknown device attached, and WO_READ_MODE Draw. -/
def drawing : State := { attached .unknown with params := { params .environment with woReadMode := .draw } }

/-- SoC RESET with Echo1, INTENA and SPI_INT enabled (L2.5l). -/
def armed : State :=
  withSoc { constructSoc (params .environment) with device := some .echo1, intena := true, spiInt := ⟨false, false, true⟩ }

/-- The Coupled-mode SoC of L2.7b with both sources enabled. -/
def coupledSoc : State :=
  { start .coupled with soc := { (start .coupled).soc with spiInt := ⟨false, false, true⟩, spiHold := ⟨false, false, true⟩ } }

/-- One request lined up. -/
def offering (q : Request) : State := placeRequest q (start .environment)

/-- A fact about the next state of an outcome. -/
def next? (o : Host.Outcome State Fault Refusal) (f : State → Bool) : Bool :=
  match o with
  | .next t => f t
  | .fault _ => false
  | .refused _ => false

/-- A fact about the next state of an operation. -/
def after (i : Instr) (s : State) (f : State → Bool) : Bool := next? (exec i s) f

/-- The facets of the EC as the three vectors `st`, `pe`, `en` and `ln` of 95_test_vectors.md. -/
def ecFacets (s : State) : Word × Word × Word × Bool :=
  (bits3 s.ec.spiAvail.status s.ec.spiEvent.status s.ec.spiErr.status,
   bits3 s.ec.spiAvail.pending s.ec.spiEvent.pending s.ec.spiErr.pending,
   bits3 s.ec.spiAvail.enable s.ec.spiEvent.enable s.ec.spiErr.enable, s.ec.line)

/-- The facets of the SoC, likewise. -/
def socFacets (s : State) : Word × Word × Word × Bool :=
  (bits2 s.soc.spiInt.status s.soc.spiHold.status, bits2 s.soc.spiInt.pending s.soc.spiHold.pending,
   bits2 s.soc.spiInt.enable s.soc.spiHold.enable, s.soc.line)

/-- An EC with the given `st`, `pe`, `en`, each bit 2 first, and `ln`. -/
def ecWith (st2 st1 st0 pe2 pe1 pe0 en2 en1 en0 ln : Bool) : State :=
  withEc ⟨0, ⟨st0, pe0, en0⟩, ⟨st1, pe1, en1⟩, ⟨st2, pe2, en2⟩, ln, []⟩

/-! Well-formedness: an ill-formed term for each check -/

/-- R51: a mapped offset is no unmapped access. -/
theorem test_wf_unmapped_ec : WellFormed (.ecRdUnmapped 0x010) = false ∧ WellFormed (.ecWrUnmapped 0x000 1) = false := by decide

/-- R51, likewise on the SoC; 0x014 and 0x018 are unmapped on the EC only. -/
theorem test_wf_unmapped_soc :
    WellFormed (.socRdUnmapped 0x018) = false ∧ WellFormed (.socWrUnmapped 0x014 1) = false ∧
    WellFormed (.ecRdUnmapped 0x014) = true ∧ WellFormed (.ecWrUnmapped 0x018 1) = true := by decide

/-- R172: no source 3. -/
theorem test_wf_source : WellFormed (.ecEnvSetStatus 3 true) = false ∧ WellFormed (.ecEnvSetStatus 2 true) = true := by decide

/-- R173: no field at position 4. -/
theorem test_wf_position : WellFormed (.ecEnvEcstatSet 4 true) = false ∧ WellFormed (.ecEnvEcstatSet 17 true) = true := by decide

/-! Decoding: each constructor's word written out as `kind off` from R71-R74 -/

/-- RD on the EC: kind 00. -/
theorem test_words_ec_rd :
    decode .environment ⟨.ec, 0b00000000000000, 0⟩ = .ok .ecRdControl ∧
    decode .environment ⟨.ec, 0b00000000000100, 0⟩ = .ok .ecRdStatus ∧
    decode .environment ⟨.ec, 0b00000000001000, 0⟩ = .ok .ecRdEvStatus ∧
    decode .environment ⟨.ec, 0b00000000001100, 0⟩ = .ok .ecRdEvPending ∧
    decode .environment ⟨.ec, 0b00000000010000, 0⟩ = .ok .ecRdEvEnable ∧
    decode .environment ⟨.ec, 0b00000000010100, 0⟩ = .ok (.ecRdUnmapped 0x014) := ⟨rfl, rfl, rfl, rfl, rfl, rfl⟩

/-- WR on the EC: kind 01. -/
theorem test_words_ec_wr :
    decode .environment ⟨.ec, 0b01000000000000, 7⟩ = .ok (.ecWrControl 7) ∧
    decode .environment ⟨.ec, 0b01000000000100, 7⟩ = .ok (.ecWrStatus 7) ∧
    decode .environment ⟨.ec, 0b01000000001000, 7⟩ = .ok (.ecWrEvStatus 7) ∧
    decode .environment ⟨.ec, 0b01000000001100, 7⟩ = .ok (.ecWrEvPending 7) ∧
    decode .environment ⟨.ec, 0b01000000010000, 7⟩ = .ok (.ecWrEvEnable 7) ∧
    decode .environment ⟨.ec, 0b01000000011000, 7⟩ = .ok (.ecWrUnmapped 0x018 7) := ⟨rfl, rfl, rfl, rfl, rfl, rfl⟩

/-- RD on the SoC. -/
theorem test_words_soc_rd :
    decode .environment ⟨.soc, 0b00000000000000, 0⟩ = .ok .socRdTx ∧
    decode .environment ⟨.soc, 0b00000000000100, 0⟩ = .ok .socRdRx ∧
    decode .environment ⟨.soc, 0b00000000001000, 0⟩ = .ok .socRdControl ∧
    decode .environment ⟨.soc, 0b00000000001100, 0⟩ = .ok .socRdStatus ∧
    decode .environment ⟨.soc, 0b00000000010000, 0⟩ = .ok .socRdEvStatus ∧
    decode .environment ⟨.soc, 0b00000000010100, 0⟩ = .ok .socRdEvPending ∧
    decode .environment ⟨.soc, 0b00000000011000, 0⟩ = .ok .socRdEvEnable ∧
    decode .environment ⟨.soc, 0b00111111111111, 0⟩ = .ok (.socRdUnmapped 0xFFF) :=
  ⟨rfl, rfl, rfl, rfl, rfl, rfl, rfl, rfl⟩

/-- WR on the SoC. -/
theorem test_words_soc_wr :
    decode .environment ⟨.soc, 0b01000000000000, 9⟩ = .ok (.socWrTx 9) ∧
    decode .environment ⟨.soc, 0b01000000000100, 9⟩ = .ok (.socWrRx 9) ∧
    decode .environment ⟨.soc, 0b01000000001000, 9⟩ = .ok (.socWrControl 9) ∧
    decode .environment ⟨.soc, 0b01000000001100, 9⟩ = .ok (.socWrStatus 9) ∧
    decode .environment ⟨.soc, 0b01000000010000, 9⟩ = .ok (.socWrEvStatus 9) ∧
    decode .environment ⟨.soc, 0b01000000010100, 9⟩ = .ok (.socWrEvPending 9) ∧
    decode .environment ⟨.soc, 0b01000000011000, 9⟩ = .ok (.socWrEvEnable 9) ∧
    decode .environment ⟨.soc, 0b01000000000010, 9⟩ = .ok (.socWrUnmapped 0x002 9) :=
  ⟨rfl, rfl, rfl, rfl, rfl, rfl, rfl, rfl⟩

/-- RST and ENV: kinds 10 and 11. -/
theorem test_words_rst_env :
    decode .environment ⟨.ec, 0b10000000000000, 0⟩ = .ok .ecRst ∧
    decode .environment ⟨.soc, 0b10000000000000, 0⟩ = .ok .socRst ∧
    decode .environment ⟨.ec, 0b11000100000010, 1⟩ = .ok (.ecEnvSetStatus 2 true) ∧
    decode .environment ⟨.ec, 0b11001100000000, 0x34⟩ = .ok (.ecEnvXfer 0x34) ∧
    decode .environment ⟨.ec, 0b11010000010001, 0⟩ = .ok (.ecEnvEcstatSet 17 false) ∧
    decode .environment ⟨.soc, 0b11000000000000, 1⟩ = .ok (.socEnvHoldSet true) ∧
    decode .environment ⟨.soc, 0b11000100000001, 0⟩ = .ok (.socEnvSetStatus false) ∧
    decode .environment ⟨.soc, 0b11001000000000, 1⟩ = .ok (.socEnvAttach .echo1) ∧
    decode .environment ⟨.soc, 0b11001000000001, 0⟩ = .ok .socEnvDetach :=
  ⟨rfl, rfl, rfl, rfl, rfl, rfl, rfl, rfl, rfl⟩

/-- L2.3c to L2.3i. -/
theorem test_refused_words :
    decode .environment ⟨.ec, 0x2004, 0⟩ = .error .selector ∧
    decode .environment ⟨.ec, 0x3000, 1⟩ = .error .selector ∧
    decode .environment ⟨.soc, 0x3100, 1⟩ = .error .selector ∧
    decode .coupled ⟨.soc, 0x3101, 1⟩ = .error .selector ∧
    decode .environment ⟨.ec, 0x3103, 1⟩ = .error .operand ∧
    decode .environment ⟨.soc, 0x3000, 2⟩ = .error .operand ∧
    decode .environment ⟨.ec, 0x3404, 1⟩ = .error .operand := ⟨rfl, rfl, rfl, rfl, rfl, rfl, rfl⟩

/-- The examples of R80's text form. -/
theorem test_text :
    (Instr.socWrTx 0x1234).text = "WR SOC, TX, 0x00001234" ∧ (Instr.ecEnvEcstatSet 31 true).text = "ENV EC, ECSTAT_SET(31), 1" ∧
    Instr.ecRst.text = "RST EC" := by decide

/-! One step each -/

/-- L2.1b. -/
theorem test_ec_rd_status :
    after .ecRdStatus (withEc { constructEc with ecstat := 0x80010009 }) (fun t => t.result = .rdata 0x80010009) := by decide

/-- L2.1g. -/
theorem test_soc_rd_tx : after .socRdTx busySoc (fun t => t = { busySoc with result := .rdata 0 }) := by decide

/-- L2.1i with WO_READ_MODE Draw: a value in 0x0 to 0x7. -/
theorem test_ec_rd_control_draw :
    ∃ w t, exec .ecRdControl { busyEc with params := { busyEc.params with woReadMode := .draw } } = .next t ∧
      t.result = .rdata w ∧ t.ec = busyEc.ec ∧ t.draws = ⟨3, 0, 0⟩ := ⟨_, _, rfl, rfl, rfl, rfl⟩

/-- L2.1k. -/
theorem test_soc_rd_status : after .socRdStatus busySoc (fun t => t.result = .rdata 2) := by decide

/-- L2.6c. -/
theorem test_ec_rd_evstatus :
    after .ecRdEvStatus (ecWith true false true false false false false false false false) (fun t => t.result = .rdata 5) := by
  decide

/-- L1.2d. -/
theorem test_ec_rd_evpending : after .ecRdEvPending busyEc (fun t => t.result = .rdata 6) := by decide

/-- L2.2a to L2.2f. -/
theorem test_unmapped_fault :
    exec (.ecRdUnmapped 0x014) busyEc = .fault (.invalidAddress .ec .rd 0x014) ∧
    exec (.ecWrUnmapped 0x018 1) busyEc = .fault (.invalidAddress .ec .wr 0x018) ∧
    exec (.socRdUnmapped 0x01C) busySoc = .fault (.invalidAddress .soc .rd 0x01C) ∧
    exec (.socWrUnmapped 0x002 0x1234) busySoc = .fault (.invalidAddress .soc .wr 0x002) := ⟨rfl, rfl, rfl, rfl⟩

/-- L2.6f: no write to Control changes anything. -/
theorem test_ec_wr_control : after (.ecWrControl 0x7) busyEc (fun t => t = { busyEc with result := .ack }) := by decide

/-- L1.2a: the cause is gone, pending clears. -/
theorem test_ec_ack_clears :
    after (.ecWrEvPending 2) (ecWith false false false false true false false true false true)
      (fun t => ecFacets t = (0, 0, 2, false)) := by decide

/-- L2.4d: SPI_ERR is held by its status, SPI_EVENT clears. -/
theorem test_ec_ack_holds :
    after (.ecWrEvPending 6) (ecWith true false false true true false true true false true)
      (fun t => ecFacets t = (4, 4, 6, true)) := by decide

/-- L2.4a. -/
theorem test_ec_enable_latches :
    after (.ecWrEvEnable 1) (ecWith false false true false false false false false false false)
      (fun t => ecFacets t = (1, 1, 1, true)) := by decide

/-- L2.4b: masking is not acknowledging. -/
theorem test_ec_mask_keeps :
    after (.ecWrEvEnable 0) (ecWith false false false false false true false false true true)
      (fun t => ecFacets t = (0, 1, 0, false)) := by decide

/-- L1.1c. -/
theorem test_ec_set_status :
    after (.ecEnvSetStatus 2 true) (ecWith false false false false false false true false false false)
      (fun t => ecFacets t = (4, 4, 4, true)) := by decide

/-- L2.4h: a status fall never clears pending. -/
theorem test_ec_set_status_fall :
    after (.ecEnvSetStatus 1 false) (ecWith false true false false true false false true false true)
      (fun t => ecFacets t = (0, 2, 2, true)) := by decide

/-- L2.6b. -/
theorem test_ec_ecstat_set :
    after (.ecEnvEcstatSet 31 false) (withEc { constructEc with ecstat := 0x80010000 }) (fun t => t.ec.ecstat = 0x00010000) := by
  decide

/-- L2.6e with P6's sentinel. -/
theorem test_ec_xfer : after (.ecEnvXfer 0x34) busyEc (fun t => t = { busyEc with result := .byte 0x5A }) := by decide

/-- L1.3a. -/
theorem test_ec_rst : after .ecRst busyEc (fun t => t.ec = constructEc) := by decide

/-- L1.3c. -/
theorem test_soc_rst :
    after .socRst busySoc (fun t => t.soc = { constructSoc (params .environment) with holdIn := true, device := some .echo1 }) := by
  decide

/-- L2.1e. -/
theorem test_soc_wr_control :
    next? (execAll [.socWrControl 0xFFFFFFFF, .socRdControl] (start .environment))
      (fun t => t.soc.intena && t.soc.autohold && t.result = .rdata 3) := by decide

/-- L2.4l: independent bits. -/
theorem test_soc_enable :
    next? (execAll [.socWrEvEnable 1, .socRdEvEnable] (start .environment)) (fun t => t.result = .rdata 1) := by decide

/-- L2.4m: SPI_HOLD re-latches, SPI_INT clears. -/
theorem test_soc_ack : after (.socWrEvPending 3) busySoc (fun t => socFacets t = (2, 2, 3, true)) := by decide

/-- L1.4. -/
theorem test_soc_tx :
    after (.socWrTx 0x1234) (attached .echo1) (fun t =>
      t.soc.xfers = [(0x34, 0x35), (0x12, 0x13)] && t.soc.rx = 0x1335 && !t.soc.tip && !t.soc.line && t.soc.diag = []) := by
  decide

/-- L2.5h: truncation, then no device; hold is not looked at. -/
theorem test_soc_tx_aborts :
    after (.socWrTx 0x1FFFF) { busySoc with soc := { busySoc.soc with device := none } } (fun t =>
      t.soc = { busySoc.soc with device := none, diag := [.valueTruncated 0x1FFFF, .noDeviceAttached 0xFFFF] }) := by decide

/-- L1.5. -/
theorem test_soc_tx_hold :
    after (.socWrTx 0xABCD) busySoc (fun t => t.soc = { busySoc.soc with diag := [.holdAsserted 0xABCD] }) := by decide

/-- L2.5l: the pulse is over, its latch stays. -/
theorem test_soc_tx_interrupt : after (.socWrTx 0x1234) armed (fun t => socFacets t = (0, 1, 1, true)) := by decide

/-- L2.5n: the EC stub as device. -/
theorem test_soc_tx_ec_stub :
    after (.socWrTx 0x1234) (attached .ecStub) (fun t => t.soc.xfers = [(0x34, 0x5A), (0x12, 0x5A)] && t.soc.rx = 0x5A5A) := by
  decide

/-- L2.7a: not coupled. -/
theorem test_soc_hold_set :
    after (.socEnvHoldSet true) (start .environment) (fun t => t.soc.holdIn && !t.soc.spiHold.status) := by decide

/-- L2.7b. -/
theorem test_soc_hold_set_coupled :
    after (.socEnvHoldSet true) coupledSoc (fun t => t.soc.holdIn && socFacets t = (2, 2, 3, true)) := by decide

/-- L2.7h. -/
theorem test_soc_set_status :
    after (.socEnvSetStatus true) { busySoc with soc := { (attached .echo1).soc with spiHold := ⟨false, false, true⟩ } }
      (fun t => socFacets t = (2, 2, 2, true) && !t.soc.holdIn) := by decide

/-- L2.7e and L2.7f. -/
theorem test_soc_attach_detach :
    next? (execAll [.socEnvAttach .echo1, .socWrTx 0, .socEnvDetach, .socWrTx 1] (start .environment)) (fun t =>
      t.soc.rx = 0x0101 && t.soc.device = none && t.soc.diag = [.noDeviceAttached 1]) := by decide

/-! The host's probe -/

/-- The probe's step runs the operation its word spells. -/
theorem test_probe :
    decodeTableWord 14 0x1004 = some (.socWrRx 0) ∧ decodeTableWord 14 0x3410 = some (.ecEnvEcstatSet 16 false) ∧
    step ((start .environment).withFetchWord 14 0x3410) = exec (.ecEnvEcstatSet 16 false) { start .environment with count := 1 } :=
  ⟨rfl, rfl, rfl⟩

/-! Witnesses: states and operands that meet the hypotheses of each statement together -/

/-- The invariant holds of a busy EC: EcAcknowledge, EcEnableWrite, EcStatusDriven. -/
theorem test_busy_ec_invariant : Invariant busyEc := ⟨by decide, by decide, by decide, by decide, by decide⟩

/-- The invariant holds of a busy SoC: SocRegisterReads, SocAcknowledge, SocEnableWrite. -/
theorem test_busy_soc_invariant : Invariant busySoc := ⟨by decide, by decide, by decide, by decide, by decide⟩

/-- The invariant holds of an armed SoC. -/
theorem test_armed_invariant : Invariant armed := ⟨by decide, by decide, by decide, by decide, by decide⟩

/-- The invariant holds of a Coupled-mode SoC. -/
theorem test_coupled_invariant : Invariant coupledSoc := ⟨by decide, by decide, by decide, by decide, by decide⟩

/-- The invariant is not empty of content: a latch, a line, the engine and a reserved bit each break it. -/
theorem test_invariant_refutes :
    ¬ EcLatched (ecWith false false true false false false false false true false) ∧
    ¬ LinesFollow (ecWith false false false false false true false false true false) ∧
    ¬ EngineIdle (withSoc { armed.soc with tip := true }) ∧
    ¬ EcstatReserved (withEc { constructEc with ecstat := 0x10 }) := by decide

/-- DecodeOfEncode. -/
theorem test_witness_decodeOfEncode :
    (WellFormed (.ecEnvEcstatSet 31 true) = true ∧ (Instr.ecEnvEcstatSet 31 true).offered .coupled = true) ∧
    (WellFormed (.socEnvSetStatus true) = true ∧ (Instr.socEnvSetStatus true).offered .environment = true) := by decide

/-- DecodedSpellsItsRecord. -/
theorem test_witness_decodedSpellsItsRecord :
    decode .coupled ⟨.soc, 0x1018, 0xFFFFFFFF⟩ = .ok (.socWrEvEnable 0xFFFFFFFF) ∧
    (Instr.socWrEvEnable 0xFFFFFFFF).kind = .wr := ⟨rfl, rfl⟩

/-- ReservedSelectorsRefused, each clause next to an offered offset (0x104 and 0x420 by log 14). -/
theorem test_witness_reservedSelectors :
    (decode .coupled ⟨.ec, selector .rst 0x001, 0⟩ = .error .selector ∧
      decode .coupled ⟨.soc, selector .rst 0xFFF, 0⟩ = .error .selector) ∧
    (∀ off ∈ ([0x0FF, 0x104, 0x2FF, 0x301, 0x3FF, 0x420] : List Offset),
      (∀ n : Nat, n < 4 → off.toNat ≠ 0x100 + n) ∧ off.toNat ≠ 0x300 ∧ (∀ n : Nat, n < 32 → off.toNat ≠ 0x400 + n)) ∧
    (∀ off ∈ ([0x001, 0x100, 0x102, 0x1FF, 0x202] : List Offset),
      off ≠ 0 ∧ off ≠ 0x101 ∧ off ≠ 0x200 ∧ off ≠ 0x201) := by
  refine ⟨⟨rfl, rfl⟩, fun off h => ?_, by decide⟩
  simp only [List.mem_cons, List.not_mem_nil, or_false] at h
  rcases h with rfl | rfl | rfl | rfl | rfl | rfl <;>
    exact ⟨fun n _ => by simp; omega, by decide, fun n _ => by simp; omega⟩

/-- OperandsOutOfRangeRefused, each clause at the first value out of range. -/
theorem test_witness_operandsOutOfRange :
    1 < (2 : Word).toNat ∧ 0xFF < (0x100 : Word).toNat ∧ 3 < (4 : Word).toNat ∧
    (∀ k ∈ ([4, 15, 18, 29] : List (BitVec 5)), isEcstatPosition k = false) ∧
    decode .environment ⟨.ec, 0x3300, 0xFF⟩ = .ok (.ecEnvXfer 0xFF) ∧
    decode .environment ⟨.soc, 0x3200, 3⟩ = .ok (.socEnvAttach .reentrant) := by
  refine ⟨by decide, by decide, by decide, by decide, rfl, rfl⟩

/-- StepRunsDecodedOperation, each clause. -/
theorem test_witness_stepRuns :
    ((offering (.op ⟨.soc, 0x1000, 0x1234⟩)).requests = .op ⟨.soc, 0x1000, 0x1234⟩ :: [] ∧
      decode (offering (.op ⟨.soc, 0x1000, 0x1234⟩)).params.holdStatusMode ⟨.soc, 0x1000, 0x1234⟩ = .ok (.socWrTx 0x1234)) ∧
    ((offering (.op ⟨.ec, 0x2004, 0⟩)).requests = .op ⟨.ec, 0x2004, 0⟩ :: [] ∧
      decode (offering (.op ⟨.ec, 0x2004, 0⟩)).params.holdStatusMode ⟨.ec, 0x2004, 0⟩ = .error .selector) ∧
    ((offering (.op ⟨.ec, 0x3103, 0⟩)).requests = .op ⟨.ec, 0x3103, 0⟩ :: [] ∧
      decode (offering (.op ⟨.ec, 0x3103, 0⟩)).params.holdStatusMode ⟨.ec, 0x3103, 0⟩ = .error .operand) ∧
    busySoc.requests = [] := ⟨⟨rfl, rfl⟩, ⟨rfl, rfl⟩, ⟨rfl, rfl⟩, rfl⟩

/-- BusAccessSteps, each clause at the window's edge; the last at a misaligned offset (log 23). -/
theorem test_witness_busAccessSteps :
    (offering (.access .soc .wr 0xFFF 4 1)).requests = .access .soc .wr 0xFFF 4 1 :: [] ∧ 0xFFF < 0x1000 ∧
    (offering (.access .ec .rd 0x1000 2 0)).requests = .access .ec .rd 0x1000 2 0 :: [] ∧ 0x1000 ≤ 0x1000 ∧
    step (offering (.access .soc .wr 0xFFF 4 1)) = .fault (.invalidAddress .soc .wr 0xFFF) ∧
    step (offering (.access .ec .rd 0x1000 2 0)) = .refused .window ∧
    step (offering (.access .ec .rd 0xFFF 2 0)) = .refused .width ∧
    step (offering (.access .soc .wr 0x002 2 1)) = .refused .width :=
  ⟨rfl, by decide, rfl, by decide, rfl, rfl, rfl, rfl⟩

/-- SystemAddressReachesWindow: adjacent windows, their ends, and the addresses next to them. -/
theorem test_witness_systemAddress :
    disjointWindows (params .environment) = true ∧
    (params .environment).baseEc + 0xFFF = 0x10FFF ∧ (params .environment).baseSoc + 0 = 0x11000 ∧
    (0xFFFF < (params .environment).baseEc ∧ 0xFFFF < (params .environment).baseSoc) ∧
    ((params .environment).baseEc + 0x1000 ≤ 0x12000 ∧ (params .environment).baseSoc + 0x1000 ≤ 0x12000) := by decide

/-- SystemAddressReachesWindow: a step at each of those addresses. -/
theorem test_step_systemAddress :
    step (offering (.mem .rd 0x10FFF 4 0)) = .fault (.invalidAddress .ec .rd 0xFFF) ∧
    step (offering (.mem .wr 0x11000 4 7)) = exec (.socWrTx 7) { start .environment with count := 1 } ∧
    step (offering (.mem .rd 0xFFFF 4 0)) = .refused .window ∧
    step (offering (.mem .rd 0x12000 2 0)) = .refused .window := ⟨rfl, rfl, rfl, rfl⟩

/-- UnmappedAccessesFault and BankFaultsExactlyWhenUnmapped. -/
theorem test_witness_unmapped :
    (0x002 : Offset).toNat % 4 ≠ 0 ∧ mapped .ec 0x014 = false ∧ mapped .soc 0x01C = false ∧ mapped .soc 0xFFF = false ∧
    mapped .ec 0x010 = true ∧ mapped .soc 0x018 = true := by decide

/-- OnlyUnmappedAccessesFault. -/
theorem test_witness_onlyUnmappedFault :
    WellFormed (.ecWrUnmapped 0x014 7) = true ∧ exec (.ecWrUnmapped 0x014 7) busyEc = .fault (.invalidAddress .ec .wr 0x014) :=
  ⟨by decide, rfl⟩

/-- FaultLeavesMachineUnchanged. -/
theorem test_witness_faultLeaves :
    step (offering (.op ⟨.soc, 0x001C, 0⟩)) = .fault (.invalidAddress .soc .rd 0x01C) := rfl

/-- OtherOperationsComplete: a transfer that runs, and one that hold blocks before a re-entering device. -/
theorem test_witness_othersComplete :
    WellFormed (.socWrTx 5) = true ∧ (Instr.socWrTx 5).offered (attached .echo1).params.holdStatusMode = true ∧
    mapped (Instr.socWrTx 5).inst (selOff (encode (.socWrTx 5)).sel) = true ∧
    (transferRuns (attached .echo1) = true ∧ (attached .echo1).soc.device ≠ some .reentrant) ∧
    transferRuns { busySoc with soc := { busySoc.soc with device := some .reentrant } } = false := by decide

/-- WriteOnlyReads: the Zero clause. -/
theorem test_witness_writeOnlyReads : busyEc.params.woReadMode = .zero ∧ busySoc.params.woReadMode = .zero := by decide

/-- SocRegisterReads: the clause of the aborted transfer, by hold and by no device. -/
theorem test_witness_abortedRead : transferRuns busySoc = false ∧ transferRuns (start .coupled) = false := by decide

/-- ReadsChangeNoInstance. -/
theorem test_witness_reads :
    isMappedRead .ecRdControl = true ∧ isMappedRead .socRdEvEnable = true ∧ isMappedRead (.ecRdUnmapped 0x014) = false := by
  decide

/-- RegisterWritesIdempotent, at an acknowledge that clears one bit and leaves a held one. -/
theorem test_witness_idempotent :
    Invariant busySoc ∧ (Instr.socWrEvPending 3).kind = .wr ∧ (∀ w, Instr.socWrEvPending 3 ≠ .socWrTx w) ∧
    mapped (Instr.socWrEvPending 3).inst (selOff (encode (.socWrEvPending 3)).sel) = true :=
  ⟨test_busy_soc_invariant, rfl, (by intro w h; cases h), by decide⟩

/-- EcStatusFieldDriven, each clause at an end of the positions. -/
theorem test_witness_statusField :
    (∀ k ∈ ([0, 31] : List (BitVec 5)), k ∈ ([0, 1, 2, 3, 16, 17, 30, 31] : List (BitVec 5))) ∧
    (∀ k ∈ ([4, 15, 18, 29] : List (BitVec 5)), k ∉ ([0, 1, 2, 3, 16, 17, 30, 31] : List (BitVec 5))) := by decide

/-- HoldInputDriven and SpiHoldStatusDriven, each clause. -/
theorem test_witness_modes :
    busySoc.params.holdStatusMode = .environment ∧ coupledSoc.params.holdStatusMode = .coupled ∧
    Invariant busySoc ∧ Invariant coupledSoc := ⟨rfl, rfl, test_busy_soc_invariant, test_coupled_invariant⟩

/-- TxWithoutDevice and TxBlockedByHold. -/
theorem test_witness_txAborts :
    (start .environment).soc.device = none ∧
    busySoc.soc.device = some .echo1 ∧ busySoc.soc.autohold = true ∧ busySoc.soc.holdIn = true := by decide

/-- TxExchangesLowByteFirst and TxTransferRuns: a named device and an unknown one. -/
theorem test_witness_txRuns :
    Invariant armed ∧ armed.soc.device = some .echo1 ∧ answers .echo1 = true ∧
    (armed.soc.autohold = true → armed.soc.holdIn = false) ∧ namedAnswer armed .echo1 0xFF = some 0x00 ∧
    (attached .unknown).soc.device = some .unknown ∧ answers .unknown = true :=
  ⟨test_armed_invariant, rfl, rfl, by decide, rfl, rfl, rfl⟩

/-- TxReentryRefused and EchoTransferOf1234. -/
theorem test_witness_txDevices :
    (attached .reentrant).soc.device = some .reentrant ∧ (attached .reentrant).soc.autohold = false ∧
    (attached .echo1).soc.device = some .echo1 ∧ (attached .echo1).soc.autohold = false := by decide

/-- DiagnosticsOnlyFromTx, each clause. -/
theorem test_witness_diagnostics :
    (∃ t, exec (.socWrTx 0x1FFFF) busySoc = .next t) ∧
    (∃ t, exec .socRst busySoc = .next t) ∧ (∀ w, Instr.socRst ≠ .socWrTx w) :=
  ⟨⟨_, rfl⟩, ⟨_, rfl⟩, fun _ h => nomatch h⟩

/-- PendingFallsOnlyByAcknowledge: by an acknowledge, and by a reset. -/
theorem test_witness_pendingFalls :
    (∃ t, exec (.socWrEvPending 1) busySoc = .next t ∧ (sourceOf busySoc .spiInt).pending = true ∧
      (sourceOf t .spiInt).pending = false) ∧
    (∃ t, exec .ecRst busyEc = .next t ∧ (sourceOf busyEc .spiErr).pending = true ∧ (sourceOf t .spiErr).pending = false) :=
  ⟨⟨_, rfl, rfl, rfl⟩, ⟨_, rfl, rfl, rfl⟩⟩

/-- SpiIntRisesOnlyByTransfer. -/
theorem test_witness_spiIntRises :
    Invariant armed ∧ ∃ t, exec (.socWrTx 0) armed = .next t ∧ armed.soc.spiInt.pending = false ∧ t.soc.spiInt.pending = true :=
  ⟨test_armed_invariant, _, rfl, rfl, rfl⟩

/-- BusNeverWritesStatus. -/
theorem test_witness_busStatus :
    Invariant armed ∧ (Instr.socWrTx 0).kind = .wr ∧ ∃ t, exec (.socWrTx 0) armed = .next t :=
  ⟨test_armed_invariant, rfl, _, rfl⟩

/-- EnableChangesOnlyByMaskOrReset: by a mask write, and by a reset. -/
theorem test_witness_enableChanges :
    (∃ t, exec (.ecWrEvEnable 0) busyEc = .next t ∧ (sourceOf t .spiEvent).enable ≠ (sourceOf busyEc .spiEvent).enable) ∧
    (∃ t, exec .socRst busySoc = .next t ∧ (sourceOf t .spiHold).enable ≠ (sourceOf busySoc .spiHold).enable) :=
  ⟨⟨_, rfl, by decide⟩, ⟨_, rfl, by decide⟩⟩

/-- StepKeepsInvariant: a step that raises an interrupt. -/
theorem test_witness_stepKeeps :
    Invariant { armed with requests := [.op ⟨.soc, 0x1000, 0x1234⟩] } ∧
    ∃ t, step { armed with requests := [.op ⟨.soc, 0x1000, 0x1234⟩] } = .next t ∧ t.soc.line = true :=
  ⟨⟨by decide, by decide, by decide, by decide, by decide⟩, _, rfl, rfl⟩

/-- InstancesAreSeparate and InstancesCommute: a drawing EC Control read beside a transfer with an unknown device. -/
theorem test_witness_instances :
    Instr.ecRdControl.inst ≠ (Instr.socWrTx 1).inst ∧
    ∃ a t, exec .ecRdControl drawing = .next a ∧ exec (.socWrTx 1) a = .next t ∧ t.draws = ⟨3, 0, 2⟩ :=
  ⟨by decide, _, _, rfl, rfl, rfl⟩

/-- InstancesCommute: the second operation faults, and is refused. -/
theorem test_witness_instancesStop :
    (∃ a, exec (.ecWrEvEnable 7) armed = .next a ∧ exec (.socRdUnmapped 0x01C) a = .fault (.invalidAddress .soc .rd 0x01C)) ∧
    (∃ a, exec (.ecWrEvEnable 7) (attached .reentrant) = .next a ∧ exec (.socWrTx 1) a = .refused .reentrant) :=
  ⟨⟨_, rfl, rfl⟩, ⟨_, rfl, rfl⟩⟩

/-- R62: a drawing EC read before a transfer does not move the unknown device's answers. -/
theorem test_draws_apart :
    ∃ t u, execAll [.ecRdControl, .socWrTx 1] drawing = .next t ∧ execAll [.socWrTx 1, .ecRdControl] drawing = .next u ∧
      t.soc.rx = u.soc.rx ∧ t.soc.xfers = u.soc.xfers := ⟨_, _, rfl, rfl, rfl, rfl⟩

/-- RxChangesOnlyByTransfer: by a transfer, and by a reset. -/
theorem test_witness_rxChanges :
    (∃ t, exec (.socWrTx 0x1234) armed = .next t ∧ t.soc.rx ≠ armed.soc.rx ∧ t.soc.xfers ≠ armed.soc.xfers) ∧
    (∃ t, exec .socRst busySoc = .next t ∧ t.soc.rx ≠ busySoc.soc.rx) :=
  ⟨⟨_, rfl, by decide, by decide⟩, ⟨_, rfl, by decide⟩⟩

/-- InputsOwnedByEnvironment, each clause. -/
theorem test_witness_inputs :
    (∃ t, exec (.socEnvHoldSet false) busySoc = .next t ∧ t.soc.holdIn ≠ busySoc.soc.holdIn) ∧
    (∃ t, exec (.socEnvAttach .ecStub) busySoc = .next t ∧ t.soc.device ≠ busySoc.soc.device) ∧
    (∃ t, exec .socEnvDetach busySoc = .next t ∧ t.soc.device ≠ busySoc.soc.device) :=
  ⟨⟨_, rfl, by decide⟩, ⟨_, rfl, by decide⟩, ⟨_, rfl, by decide⟩⟩

/-- LogsOnlyGrow: a reset keeps a log that is not empty. -/
theorem test_witness_logs :
    ∃ t, exec .socRst { busySoc with soc := { busySoc.soc with diag := [.holdAsserted 1] } } = .next t ∧
      t.soc.diag = [.holdAsserted 1] := ⟨_, rfl, rfl⟩

/-- EnvironmentAdmitsCoupled: the hold input, and another operation. -/
theorem test_witness_coupled :
    coupledSoc.params.holdStatusMode = .coupled ∧ (∃ t, exec (.socEnvHoldSet true) coupledSoc = .next t) ∧
    (∃ t, exec (.socWrEvEnable 0) coupledSoc = .next t) := ⟨rfl, ⟨_, rfl⟩, ⟨_, rfl⟩⟩

end Sys2Proof.Tests
end

namespace Sys2Proof.Machine

/-! What recompute does to every source and to the lines (41_interrupt_controller.md R122). -/

/-- Recompute latches the sources of its own instance and leaves those of the other (R122). -/
theorem sourceOf_recompute (p : Inst) (s : State) (x : Source) :
    sourceOf (recompute p s) x = if sourceInst x = p then latch (sourceOf s x) else sourceOf s x := by
  cases p <;> cases x <;> rfl

/-- After recompute the EC's line is R37's OR over the facets it left. -/
theorem recompute_ec_line (s : State) : (recompute .ec s).ec.line = ecRequests (recompute .ec s) := rfl

/-- After recompute the SoC's line is R37's OR over the facets it left. -/
theorem recompute_soc_line (s : State) : (recompute .soc s).soc.line = socRequests (recompute .soc s) := rfl

/-- Settles O43: each source by the latch's formula, each line by R37's OR, the frame by the equation of recompute. -/
theorem recomputeLatchesAndDrivesLine : Obligations.RecomputeLatchesAndDrivesLine := by
  intro p s
  refine ⟨fun x => ?sources, recompute_ec_line s, recompute_soc_line s, ?frameEc, ?frameSoc⟩
  case sources => rw [sourceOf_recompute, latch_eq]
  case frameEc => rw [recompute_ec]
  case frameSoc => rw [recompute_soc]

end Sys2Proof.Machine

namespace Sys2Proof.Machine

/-! What a Tx write answers (42_transfer_engine.md R140-R144). -/

/-- A Tx write runs `send` and acknowledges what it leaves, or is refused as it is (R191). -/
theorem exec_socWrTx (w : Word) (s : State) : exec (.socWrTx w) s =
    match send w s with
    | .ok t => complete .ack t
    | .error e => .refused e := by
  have hf : fields .soc 0x000 = some [⟨0, 16, .w, .unbacked, .send⟩] := rfl
  simp only [exec, execSocWrTx, busWrite, hf, writeFields, fieldWrite, runCallback]
  cases send w s <;> rfl

/-- Where `send` ends normally, so does the Tx write. -/
theorem exec_socWrTx_of_send {w : Word} {s t : State} (h : send w s = .ok t) :
    exec (.socWrTx w) s = .next (respond .ack t) := by
  rw [exec_socWrTx, h]
  rfl

/-- `send` with an answering device and no hold: the truncation log, the two answers received, the finished interrupt (R140). -/
theorem send_answered {s : State} {d : Device} (hd : s.soc.device = some d) (ha : answers d = true)
    (hb : s.soc.autohold = true → s.soc.holdIn = false) (w : Word) :
    ∃ r0 r1 n, send w s = .ok (finishedInterrupt { s with
        soc := { s.soc with
          rx := r1 ++ r0, tip := false, diag := s.soc.diag ++ truncationLog w,
          xfers := s.soc.xfers ++ [(w.extractLsb' 0 8, r0), (w.extractLsb' 8 8, r1)] },
        draws := { s.draws with device := n } }) ∧
      (∀ r, namedAnswer s d (w.extractLsb' 0 8) = some r → r0 = r) ∧
      (∀ r, namedAnswer s d (w.extractLsb' 8 8) = some r → r1 = r) ∧
      (d ≠ .unknown → n = s.draws.device) := by
  have hfree : (s.soc.autohold && s.soc.holdIn) = false := by simpa using hb
  obtain ⟨r0, r1, n, he, h0, h1, hn⟩ :=
    exchange_ok ha (sentValue w) { s with soc := { s.soc with diag := s.soc.diag ++ truncationLog w } }
  rw [lowByte_sentValue] at he h0
  rw [highByte_sentValue] at he h1
  refine ⟨r0, r1, n, ?_, fun r hr => h0 r ?_, fun r hr => h1 r ?_, hn⟩
  · rw [send_runs hd hfree, he]
  · cases d <;> exact hr
  · cases d <;> exact hr

@[simp] theorem finishedInterrupt_rx (s : State) : (finishedInterrupt s).soc.rx = s.soc.rx := by
  rw [finishedInterrupt_eq]
  split <;> rfl

@[simp] theorem finishedInterrupt_tip (s : State) : (finishedInterrupt s).soc.tip = s.soc.tip := by
  rw [finishedInterrupt_eq]
  split <;> rfl

@[simp] theorem finishedInterrupt_xfers (s : State) : (finishedInterrupt s).soc.xfers = s.soc.xfers := by
  rw [finishedInterrupt_eq]
  split <;> rfl

/-- Settles O36, from `send` with no device attached. -/
theorem txWithoutDevice : Obligations.TxWithoutDevice := by
  intro w s hd
  exact exec_socWrTx_of_send (send_noDevice hd w)

/-- Settles O38: the exchange's two pairs and receive value, which the finished interrupt leaves alone. -/
theorem txExchangesLowByteFirst : Obligations.TxExchangesLowByteFirst := by
  intro w d s hd ha hb
  obtain ⟨r0, r1, n, hsend, -, -, -⟩ := send_answered hd ha hb w
  refine ⟨r0, r1, _, exec_socWrTx_of_send hsend, ?trace, ?low, ?high, ?tip⟩
  case trace => rw [respond_soc, finishedInterrupt_xfers]
  case low =>
    rw [respond_soc, finishedInterrupt_rx]
    exact BitVec.extractLsb'_append_eq_right
  case high =>
    rw [respond_soc, finishedInterrupt_rx]
    exact BitVec.extractLsb'_append_eq_left
  case tip => rw [respond_soc, finishedInterrupt_tip]

end Sys2Proof.Machine

namespace Sys2Proof

/-! Accesses at unmapped offsets (20_memory.md R51, 43_ec_peripheral.md R170 and R171, 44_soc_peripheral.md R204 and R205). -/

/-- A selector is its kind's selector at offset 0 with the offset in bits 11:0 (R71). -/
theorem selector_eq_or_offset (k : Kind) (off : Offset) : selector k off = selector k 0 ||| off.setWidth 14 := by
  simp only [selector, BitVec.append_def, BitVec.or_assoc]
  congr 1
  simp

/-- A mapped offset is a multiple of 4 (R51). -/
theorem toNat_mod_four_of_mapped {p : Inst} {off : Offset} (h : mapped p off = true) : off.toNat % 4 = 0 := by
  have aligned : ∀ q : Inst, ∀ o ∈ mappedOffsets q, o.toNat % 4 = 0 := by
    intro q
    cases q <;> decide
  exact aligned p off (List.contains_iff_mem.mp h)

/-- A misaligned offset is mapped for neither instance (R51, R170, R204). -/
theorem mapped_eq_false_of_misaligned {off : Offset} (h : off.toNat % 4 ≠ 0) (p : Inst) : mapped p off = false :=
  Bool.eq_false_iff.mpr fun hm => h (toNat_mod_four_of_mapped hm)

/-- The read row of an unmapped offset (R170, R204). -/
def unmappedRd (p : Inst) (off : Offset) : Instr :=
  match p with
  | .ec => .ecRdUnmapped off
  | .soc => .socRdUnmapped off

/-- The write row of an unmapped offset (R171, R205). -/
def unmappedWr (p : Inst) (off : Offset) (w : Word) : Instr :=
  match p with
  | .ec => .ecWrUnmapped off w
  | .soc => .socWrUnmapped off w

/-- An unmapped offset is none of the instance's mapped ones (R51). -/
theorem ne_of_unmapped {p : Inst} {off : Offset} (h : mapped p off = false) : ∀ o ∈ mappedOffsets p, off ≠ o := by
  rintro o ho rfl
  exact Bool.false_ne_true (h.symm.trans (List.contains_iff_mem.mpr ho))

/-- The read decoder's comparisons with the mapped offsets all fail at an unmapped one (R77). -/
theorem decodeRd_unmapped {p : Inst} {off : Offset} (h : mapped p off = false) : decodeRd p off = unmappedRd p off := by
  have hne := ne_of_unmapped h
  cases p <;> simp only [mappedOffsets, List.forall_mem_cons] at hne <;>
    simp only [decodeRd, unmappedRd, hne, if_false]

/-- The write decoder's comparisons with the mapped offsets all fail at an unmapped one (R77). -/
theorem decodeWr_unmapped {p : Inst} {off : Offset} (h : mapped p off = false) (w : Word) :
    decodeWr p off w = unmappedWr p off w := by
  have hne := ne_of_unmapped h
  cases p <;> simp only [mappedOffsets, List.forall_mem_cons] at hne <;>
    simp only [decodeWr, unmappedWr, hne, if_false]

/-- The word of a read at an unmapped offset, `00 ++ off`, decodes to the instance's unmapped row (R72, R77). -/
theorem decode_unmappedRd {p : Inst} {off : Offset} (h : mapped p off = false) (mode : HoldStatusMode) (w : Word) :
    decode mode ⟨p, 0x0000 ||| off.setWidth 14, w⟩ = .ok (unmappedRd p off) := by
  have hsel : selector .rd off = 0x0000 ||| off.setWidth 14 := selector_eq_or_offset .rd off
  rw [← hsel, ← decodeRd_unmapped h]
  simp [decode]

/-- The word of a write at an unmapped offset, `01 ++ off`, decodes to the instance's unmapped row (R72, R77). -/
theorem decode_unmappedWr {p : Inst} {off : Offset} (h : mapped p off = false) (mode : HoldStatusMode) (w : Word) :
    decode mode ⟨p, 0x1000 ||| off.setWidth 14, w⟩ = .ok (unmappedWr p off w) := by
  have hsel : selector .wr off = 0x1000 ||| off.setWidth 14 := selector_eq_or_offset .wr off
  rw [← hsel, ← decodeWr_unmapped h]
  simp [decode]

end Sys2Proof

namespace Sys2Proof.Machine

/-- Settles O10: misaligned offsets are not mapped, an unmapped offset decodes to its instance's row, and that row faults. -/
theorem unmappedAccessesFault : Obligations.UnmappedAccessesFault := by
  refine ⟨fun off h => ?misaligned, fun mode off w h => ?ec, fun mode off w h => ?soc, fun off w s => ?fault⟩
  case misaligned => exact ⟨mapped_eq_false_of_misaligned h .ec, mapped_eq_false_of_misaligned h .soc⟩
  case ec => exact ⟨decode_unmappedRd h mode w, decode_unmappedWr h mode w⟩
  case soc => exact ⟨decode_unmappedRd h mode w, decode_unmappedWr h mode w⟩
  case fault => exact ⟨rfl, rfl, rfl, rfl⟩

end Sys2Proof.Machine

namespace Sys2Proof.Machine

/-! The EC event registers: what a read returns (40_register_bank.md R103, 43_ec_peripheral.md R164, R166, R168). -/

/-- Two operations one after another, where the first completes. -/
theorem execAll_pair {i : Instr} {s t : State} (h : exec i s = .next t) (j : Instr) : execAll [i, j] s = exec j t := by
  simp only [execAll, h]
  cases exec j t <;> rfl

/-- One operation alone. -/
theorem execAll_singleton (i : Instr) (s : State) : execAll [i] s = exec i s := by
  simp only [execAll]
  cases exec i s <;> rfl

/-- A bus read of an EC event register answers one facet of each of the three sources and changes nothing (R76, R103). -/
theorem busRead_ecFacets {off : Offset} {m : AccessMode} {f : Facet} {cb : Callback}
    (hf : fields .ec off = some ((sources .ec).map (facetField m f cb))) (hm : m ≠ .w) (s : State) :
    busRead .ec off s = .next (respond (.rdata
      (bits3 (facetOf s.ec.spiAvail f) (facetOf s.ec.spiEvent f) (facetOf s.ec.spiErr f))) s) := by
  simp only [busRead, hf, readFields_ecFacets m hm, complete]

/-- A read of EC EvStatus (R164). -/
theorem exec_ecRdEvStatus (s : State) : exec .ecRdEvStatus s = .next (respond (.rdata
    (bits3 s.ec.spiAvail.status s.ec.spiEvent.status s.ec.spiErr.status)) s) :=
  busRead_ecFacets (off := 0x008) (m := .r) (f := .status) (cb := .none) rfl (by decide) s

/-- A read of EC EvPending (R166): the enable bits do not mask it. -/
theorem exec_ecRdEvPending (s : State) : exec .ecRdEvPending s = .next (respond (.rdata
    (bits3 s.ec.spiAvail.pending s.ec.spiEvent.pending s.ec.spiErr.pending)) s) :=
  busRead_ecFacets (off := 0x00C) (m := .rw1c) (f := .pending) (cb := .recompute .ec) rfl (by decide) s

/-- A read of EC EvEnable (R168). -/
theorem exec_ecRdEvEnable (s : State) : exec .ecRdEvEnable s = .next (respond (.rdata
    (bits3 s.ec.spiAvail.enable s.ec.spiEvent.enable s.ec.spiErr.enable)) s) :=
  busRead_ecFacets (off := 0x010) (m := .rw) (f := .enable) (cb := .recompute .ec) rfl (by decide) s

/-! The EC event registers: what a write stores (40_register_bank.md R105, 43_ec_peripheral.md R167, R169). -/

/-- A write of EC EvEnable visits its three bits in order (R169). -/
theorem exec_ecWrEvEnable (w : Word) (s : State) : exec (.ecWrEvEnable w) s =
    complete .ack (enableSource .ec .spiErr w (enableSource .ec .spiEvent w (enableSource .ec .spiAvail w s))) := by
  simp only [exec, execEcWrEvEnable, busWrite, show fields .ec 0x010 = some (evEnableFields .ec) from rfl, evEnableFields,
    sources, List.map, writeFields, fieldWrite_enable]
  rfl

/-- The visited source holds the written bit as its enable facet. -/
theorem enableSource_enable_self (p : Inst) (x : Source) (w : Word) (s : State) :
    (sourceOf (enableSource p x w s) x).enable = w.getLsbD (sourceIndex x) := by
  rw [enableSource, sourceOf_recompute]
  split <;> simp

/-- Every other source keeps its enable facet: recompute latches pending only. -/
theorem enableSource_enable_of_ne (p : Inst) {x y : Source} (h : y ≠ x) (w : Word) (s : State) :
    (sourceOf (enableSource p x w s) y).enable = (sourceOf s y).enable := by
  rw [enableSource, sourceOf_recompute, sourceOf_withSource_of_ne h]
  split <;> simp

/-- After a write of EC EvEnable the three enable facets are bits 2:0 of the word (R169). -/
theorem exec_ecWrEvEnable_enables (w : Word) (s : State) : ∃ t, exec (.ecWrEvEnable w) s = .next t ∧
    t.ec.spiAvail.enable = w.getLsbD 0 ∧ t.ec.spiEvent.enable = w.getLsbD 1 ∧ t.ec.spiErr.enable = w.getLsbD 2 := by
  refine ⟨_, exec_ecWrEvEnable w s, ?avail, ?event, ?err⟩
  case avail =>
    exact (enableSource_enable_of_ne .ec (y := .spiAvail) (by decide) w _).trans
      ((enableSource_enable_of_ne .ec (by decide) w _).trans (enableSource_enable_self .ec .spiAvail w s))
  case event =>
    exact (enableSource_enable_of_ne .ec (y := .spiEvent) (by decide) w _).trans
      (enableSource_enable_self .ec .spiEvent w _)
  case err => exact enableSource_enable_self .ec .spiErr w _

/-- Bits 2:0 of a word, put back at their places, are the word under the mask 7 (R76). -/
theorem bits3_getLsbD (w : Word) : bits3 (w.getLsbD 0) (w.getLsbD 1) (w.getLsbD 2) = w &&& 0x7 := by
  apply BitVec.eq_of_getLsbD_eq
  intro j hj
  simp only [bits3, BitVec.getLsbD_setWidth, BitVec.getLsbD_append, BitVec.getLsbD_ofBool, BitVec.getLsbD_and]
  interval_cases j <;> simp

/-- Settles O17: a read composes its facets, and the enable facets after a write are bits 2:0 of its word. -/
theorem ecEventReads : Obligations.EcEventReads := by
  refine ⟨rfl, rfl, rfl, fun s => ⟨exec_ecRdEvStatus s, exec_ecRdEvPending s, exec_ecRdEvEnable s⟩, fun w s => ?readBack⟩
  obtain ⟨t, hwrite, h0, h1, h2⟩ := exec_ecWrEvEnable_enables w s
  refine ⟨_, (execAll_pair hwrite .ecRdEvEnable).trans (exec_ecRdEvEnable t), ?_⟩
  rw [h0, h1, h2, bits3_getLsbD]
  rfl

end Sys2Proof.Machine

namespace Sys2Proof.Machine

/-! Writes of the EC event registers between operations (10_state.md R45, 41_interrupt_controller.md R123, R125, R126). -/

/-- Putting back the source that is there changes nothing. -/
@[simp] theorem withSource_sourceOf (x : Source) (s : State) : withSource x (sourceOf s x) s = s := by
  cases x <;> rfl

/-- The EC is latched exactly where each of its sources is. -/
theorem ecLatched_iff (s : State) : EcLatched s ↔ ∀ x, sourceInst x = .ec → Latched (sourceOf s x) := by
  constructor
  · rintro ⟨h0, h1, h2⟩ x hx
    cases x
    case spiAvail => exact h0
    case spiEvent => exact h1
    case spiErr => exact h2
    case spiInt => cases hx
    case spiHold => cases hx
  · exact fun h => ⟨h .spiAvail rfl, h .spiEvent rfl, h .spiErr rfl⟩

/-- Where the other sources are latched, recompute on the EC latches the replaced source and drives the line (R122). -/
theorem recompute_ec_withSource {s : State} (h : EcLatched s) {x : Source} (hx : sourceInst x = .ec) (e : EventSource) :
    recompute .ec (withSource x e s) = settleEc (withSource x (latch e) s) := by
  obtain ⟨h0, h1, h2⟩ := h
  rw [recompute_ec]
  cases x
  case spiAvail => simp only [withSource, latch_of_latched h1, latch_of_latched h2]; rfl
  case spiEvent => simp only [withSource, latch_of_latched h0, latch_of_latched h2]; rfl
  case spiErr => simp only [withSource, latch_of_latched h0, latch_of_latched h1]; rfl
  case spiInt => cases hx
  case spiHold => cases hx

/-- One enable bit of a latched EC: its source is masked and the line follows (R125, R126). -/
theorem enableSource_ec {s : State} (h : EcLatched s) {x : Source} (hx : sourceInst x = .ec) (w : Word) :
    enableSource .ec x w s = settleEc (withSource x (masked (w.getLsbD (sourceIndex x)) (sourceOf s x)) s) := by
  rw [enableSource, recompute_ec_withSource h hx, masked_latch]

/-- A settled EC: its sources latched and its line following them (R45 I1 and I2). -/
abbrev EcSettled (s : State) : Prop := EcLatched s ∧ s.ec.line = ecRequests s

/-- Recompute settles the EC, whatever the state before (R122). -/
theorem ecSettled_recompute (s : State) : EcSettled (recompute .ec s) :=
  ⟨⟨latched_latch _, latched_latch _, latched_latch _⟩, recompute_ec_line s⟩

/-- One enable bit leaves the EC latched, whatever the state before. -/
theorem ecLatched_enableSource (x : Source) (w : Word) (s : State) : EcLatched (enableSource .ec x w s) :=
  (ecSettled_recompute _).1

/-- One mask bit keeps the EC settled. -/
theorem ecSettled_ackSource {s : State} (h : EcSettled s) (x : Source) (w : Word) : EcSettled (ackSource .ec x w s) := by
  unfold ackSource
  split
  · exact ecSettled_recompute _
  · exact h

/-- A mask bit of 0, or one that meets a clear pending bit, changes nothing: the source is acknowledged as it stands (R123). -/
theorem acknowledged_eq_self {e : EventSource} (h : Latched e) {c : Bool} (hc : (c && e.pending) = false) :
    acknowledged c e = e := by
  cases c
  case false => exact acknowledged_false e
  case true => exact acknowledged_clear h hc true

/-- One mask bit met by a settled EC: its source is acknowledged and the line follows (R106, R123). -/
theorem ackSource_ec {s : State} (h : EcSettled s) {x : Source} (hx : sourceInst x = .ec) (w : Word) :
    ackSource .ec x w s = settleEc (withSource x (acknowledged (w.getLsbD (sourceIndex x)) (sourceOf s x)) s) := by
  obtain ⟨hlatched, hline⟩ := h
  unfold ackSource
  split
  case isTrue hset =>
    obtain ⟨hbit, -⟩ := Bool.and_eq_true_iff.mp hset
    rw [recompute_ec_withSource hlatched hx, acknowledged_true, hbit]
  case isFalse hclear =>
    rw [acknowledged_eq_self ((ecLatched_iff s).mp hlatched x hx) (Bool.eq_false_iff.mpr hclear), withSource_sourceOf,
      settleEc_of_line hline]

/-- Settles O23: bit by bit, each source is acknowledged from a settled EC. -/
theorem ecAcknowledge : Obligations.EcAcknowledge := by
  intro w s hinv
  refine ⟨rfl, ?_⟩
  have h0 : EcSettled s := ⟨hinv.ecLatched, hinv.lines.1⟩
  have h1 := ecSettled_ackSource h0 .spiAvail w
  have h2 := ecSettled_ackSource h1 .spiEvent w
  rw [exec_ecWrEvPending, ackSource_ec h2 rfl, ackSource_ec h1 rfl, ackSource_ec h0 rfl]
  rfl

/-- Settles O25: bit by bit, each source is masked from a latched EC. -/
theorem ecEnableWrite : Obligations.EcEnableWrite := by
  intro w s hinv
  refine ⟨rfl, ?_⟩
  have h0 : EcLatched s := hinv.ecLatched
  have h1 := ecLatched_enableSource .spiAvail w s
  have h2 := ecLatched_enableSource .spiEvent w (enableSource .ec .spiAvail w s)
  rw [exec_ecWrEvEnable, enableSource_ec h2 rfl, enableSource_ec h1 rfl, enableSource_ec h0 rfl]
  rfl

end Sys2Proof.Machine

namespace Sys2Proof.Machine

/-! Registers whose writes do nothing (43_ec_peripheral.md R161, R163, R165, 44_soc_peripheral.md R193, R197, R199), and what a
read leaves out of account. -/

/-- A field whose write does nothing: read-only, or write-only without a callback (R105). -/
abbrev Inert (f : Field) : Prop := f.mode = .r ∨ (f.mode = .w ∧ f.callback = .none)

/-- A write of an inert field does nothing (R105). -/
theorem fieldWrite_inert {f : Field} (h : Inert f) (w : Word) (s : State) : fieldWrite f w s = .ok s := by
  rcases h with hr | ⟨hw, hcb⟩
  · exact fieldWrite_r hr w s
  · simp [fieldWrite, hw, hcb, runCallback]

/-- A write of inert fields does nothing (R105). -/
theorem writeFields_inert {fs : List Field} (h : ∀ f ∈ fs, Inert f) (w : Word) (s : State) : writeFields fs w s = .ok s := by
  induction fs with
  | nil => rfl
  | cons f fs ih =>
    rw [List.forall_mem_cons] at h
    simp only [writeFields, fieldWrite_inert h.1, ih h.2]

/-- A bus write of a register of inert fields is acknowledged and leaves the machine as it was (R101, R105). -/
theorem busWrite_inert {p : Inst} {off : Offset} {fs : List Field} (hf : fields p off = some fs) (h : ∀ f ∈ fs, Inert f)
    (w : Word) (s : State) : busWrite p off w s = .next (respond .ack s) := by
  simp only [busWrite, hf, writeFields_inert h, complete]

/-- A field's value does not depend on the last answer. -/
theorem fieldRead_respond (p : Inst) (f : Field) (r : Response) (s : State) :
    fieldRead p f (respond r s) = ((fieldRead p f s).1, respond r (fieldRead p f s).2) := by
  have hcell : cellRead (respond r s) f.cell = cellRead s f.cell := by
    cases f.cell
    case facet x g => simp only [cellRead, sourceOf_respond]
    all_goals rfl
  have hdraw : drawBits p f.width (respond r s) = ((drawBits p f.width s).1, respond r (drawBits p f.width s).2) := by
    cases p <;> rfl
  unfold fieldRead
  rw [hcell, hdraw, respond_params]
  cases f.mode
  case w => cases s.params.woReadMode <;> rfl
  all_goals rfl

/-- A register's value does not depend on the last answer. -/
theorem readFields_respond (p : Inst) (fs : List Field) (r : Response) (s : State) :
    readFields p fs (respond r s) = ((readFields p fs s).1, respond r (readFields p fs s).2) := by
  induction fs generalizing s with
  | nil => rfl
  | cons f fs ih => simp only [readFields, fieldRead_respond, ih]

/-- A bus read replaces the last answer and does not depend on it (R103). -/
theorem busRead_respond (p : Inst) (off : Offset) (r : Response) (s : State) :
    busRead p off (respond r s) = busRead p off s := by
  unfold busRead
  cases fields p off with
  | none => rfl
  | some fs => simp only [readFields_respond]; rfl

/-- Settles O20: every field of the five registers is read-only, and a read does not depend on the acknowledgment. -/
theorem readOnlyWritesIgnored : Obligations.ReadOnlyWritesIgnored := by
  intro w s
  have ecStatus : exec (.ecWrStatus w) s = .next (respond .ack s) :=
    busWrite_inert (p := .ec) (off := 0x004) rfl (by decide) w s
  have ecEvStatus : exec (.ecWrEvStatus w) s = .next (respond .ack s) :=
    busWrite_inert (p := .ec) (off := 0x008) rfl (by decide) w s
  have socRx : exec (.socWrRx w) s = .next (respond .ack s) :=
    busWrite_inert (p := .soc) (off := 0x004) rfl (by decide) w s
  have socStatus : exec (.socWrStatus w) s = .next (respond .ack s) :=
    busWrite_inert (p := .soc) (off := 0x00C) rfl (by decide) w s
  have socEvStatus : exec (.socWrEvStatus w) s = .next (respond .ack s) :=
    busWrite_inert (p := .soc) (off := 0x010) rfl (by decide) w s
  exact ⟨rfl, ecStatus, (execAll_pair ecStatus _).trans (busRead_respond .ec 0x004 .ack s), rfl, ecEvStatus, rfl, socRx,
    (execAll_pair socRx _).trans (busRead_respond .soc 0x004 .ack s), rfl, socStatus, rfl, socEvStatus⟩

/-- Settles O31: the second reset finds the state the first one left; EC Control's three fields are inert. -/
theorem ecReset : Obligations.EcReset := by
  refine ⟨rfl, fun s => ⟨rfl, ?again, busWrite_inert (p := .ec) (off := 0x000) rfl (by decide) 0x4 s⟩⟩
  case again =>
    have first : exec .ecRst s = .next (respond .ack (resetInst .ec s)) := rfl
    rw [execAll_pair first, execAll_singleton]
    rfl

end Sys2Proof.Machine

namespace Sys2Proof.Machine

/-! The SoC registers: what a read returns (40_register_bank.md R103, 44_soc_peripheral.md R192-R202). -/

/-- Two one-bit fields at bits 0 and 1, composed (R76). -/
theorem bit_or_bit_eq_bits2 : ∀ a b : Bool, (bit a <<< 0) ||| ((bit b <<< 1) ||| 0) = bits2 a b := by decide

/-- A bus read of a SoC register of two readable one-bit fields answers their two cells and changes nothing (R76, R103). -/
theorem busRead_socBits {off : Offset} {m : AccessMode} {c0 c1 : Cell} {cb : Callback}
    (hf : fields .soc off = some [⟨0, 1, m, c0, cb⟩, ⟨1, 1, m, c1, cb⟩]) (hm : m ≠ .w) {s : State} {a b : Bool}
    (h0 : cellRead s c0 = bit a) (h1 : cellRead s c1 = bit b) :
    busRead .soc off s = .next (respond (.rdata (bits2 a b)) s) := by
  have hread : ∀ (k : Nat) (c : Cell), fieldRead .soc ⟨k, 1, m, c, cb⟩ s = (cellRead s c, s) := by
    intro k c
    cases m
    case w => exact absurd rfl hm
    all_goals rfl
  simp only [busRead, hf, readFields, hread, h0, h1, bit_or_bit_eq_bits2, complete]

/-- A read of SoC Rx (R192). -/
theorem exec_socRdRx (s : State) : exec .socRdRx s = .next (respond (.rdata (s.soc.rx.setWidth 32)) s) := by
  have hvalue : ((s.soc.rx.setWidth 32 : Word) <<< 0) ||| 0 = s.soc.rx.setWidth 32 := by simp
  rw [← hvalue]
  rfl

/-- A read of SoC Control (R194). -/
theorem exec_socRdControl (s : State) :
    exec .socRdControl s = .next (respond (.rdata (bits2 s.soc.intena s.soc.autohold)) s) :=
  busRead_socBits (off := 0x008) (m := .rw) (c0 := .intena) (c1 := .autohold) (cb := .none) rfl (by decide) rfl rfl

/-- A read of SoC Status (R196): both bits are live. -/
theorem exec_socRdStatus (s : State) :
    exec .socRdStatus s = .next (respond (.rdata (bits2 s.soc.tip s.soc.holdIn)) s) :=
  busRead_socBits (off := 0x00C) (m := .r) (c0 := .tip) (c1 := .hold) (cb := .none) rfl (by decide) rfl rfl

/-- A read of SoC EvStatus (R198). -/
theorem exec_socRdEvStatus (s : State) :
    exec .socRdEvStatus s = .next (respond (.rdata (bits2 s.soc.spiInt.status s.soc.spiHold.status)) s) :=
  busRead_socBits (off := 0x010) (m := .r) (c0 := .facet .spiInt .status) (c1 := .facet .spiHold .status) (cb := .none)
    rfl (by decide) rfl rfl

/-- A read of SoC EvPending (R200): the enable bits do not mask it. -/
theorem exec_socRdEvPending (s : State) :
    exec .socRdEvPending s = .next (respond (.rdata (bits2 s.soc.spiInt.pending s.soc.spiHold.pending)) s) :=
  busRead_socBits (off := 0x014) (m := .rw1c) (c0 := .facet .spiInt .pending) (c1 := .facet .spiHold .pending)
    (cb := .recompute .soc) rfl (by decide) rfl rfl

/-- A read of SoC EvEnable (R202). -/
theorem exec_socRdEvEnable (s : State) :
    exec .socRdEvEnable s = .next (respond (.rdata (bits2 s.soc.spiInt.enable s.soc.spiHold.enable)) s) :=
  busRead_socBits (off := 0x018) (m := .rw) (c0 := .facet .spiInt .enable) (c1 := .facet .spiHold .enable)
    (cb := .recompute .soc) rfl (by decide) rfl rfl

/-! The SoC registers: what a write and a reset leave (40_register_bank.md R105, R108, 44_soc_peripheral.md R195, R203, R206). -/

/-- A write of SoC Control stores bit 0 in INTENA and bit 1 in AUTOHOLD; neither field has a callback (R195). -/
theorem exec_socWrControl (w : Word) (s : State) : exec (.socWrControl w) s = .next (respond .ack
    { s with soc := { s.soc with intena := w.getLsbD 0, autohold := w.getLsbD 1 } }) := by
  have hfields : fields .soc 0x008 = some [⟨0, 1, .rw, .intena, .none⟩, ⟨1, 1, .rw, .autohold, .none⟩] := rfl
  have hbit0 : fieldOperand ⟨0, 1, .rw, .intena, .none⟩ w = bit (w.getLsbD 0) := fieldOperand_oneBit _ rfl w
  have hbit1 : fieldOperand ⟨1, 1, .rw, .autohold, .none⟩ w = bit (w.getLsbD 1) := fieldOperand_oneBit _ rfl w
  simp only [exec, execSocWrControl, busWrite, hfields, writeFields, fieldWrite, runCallback, hbit0, hbit1, cellWrite,
    bit_getLsbD_zero, complete]

/-- A write of SoC EvEnable visits its two bits in order (R203). -/
theorem exec_socWrEvEnable (w : Word) (s : State) : exec (.socWrEvEnable w) s =
    complete .ack (enableSource .soc .spiHold w (enableSource .soc .spiInt w s)) := by
  simp only [exec, execSocWrEvEnable, busWrite, show fields .soc 0x018 = some (evEnableFields .soc) from rfl, evEnableFields,
    sources, List.map, writeFields, fieldWrite_enable]
  rfl

/-- After a write of SoC EvEnable the two enable facets are bits 1:0 of the word (R203). -/
theorem exec_socWrEvEnable_enables (w : Word) (s : State) : ∃ t, exec (.socWrEvEnable w) s = .next t ∧
    t.soc.spiInt.enable = w.getLsbD 0 ∧ t.soc.spiHold.enable = w.getLsbD 1 := by
  refine ⟨_, exec_socWrEvEnable w s, ?int, ?hold⟩
  case int =>
    exact (enableSource_enable_of_ne .soc (y := .spiInt) (by decide) w _).trans (enableSource_enable_self .soc .spiInt w s)
  case hold => exact enableSource_enable_self .soc .spiHold w (enableSource .soc .spiInt w s)

/-- Bits 1:0 of a word, put back at their places, are the word under the mask 3 (R76). -/
theorem bits2_getLsbD (w : Word) : bits2 (w.getLsbD 0) (w.getLsbD 1) = w &&& 0x3 := by
  apply BitVec.eq_of_getLsbD_eq
  intro j hj
  simp only [bits2, BitVec.getLsbD_setWidth, BitVec.getLsbD_append, BitVec.getLsbD_ofBool, BitVec.getLsbD_and]
  interval_cases j <;> simp

/-- SOC.RST is `Reset(S)` (R206). -/
theorem exec_socRst (s : State) : exec .socRst s = .next (respond .ack (resetInst .soc s)) := rfl

/-- `send` where no transfer runs only logs: the truncation and the reason of the abort (R142, R143). -/
theorem send_aborts {s : State} (h : transferRuns s = false) (w : Word) :
    send w s = .ok { s with soc := { s.soc with
      diag := s.soc.diag ++ (truncationLog w ++ abortLog (w.extractLsb' 0 16) s) } } := by
  cases hd : s.soc.device with
  | none => rw [send_noDevice hd, abortLog, hd]
  | some d =>
    have hheld : (s.soc.autohold && s.soc.holdIn) = true := by simpa [transferRuns, hd] using h
    obtain ⟨ha, hh⟩ := Bool.and_eq_true_iff.mp hheld
    simp only [send_held hd ha hh, abortLog, hd, hheld, if_true]

/-- Settles O18: each read composes its cells; a write, a reset or an aborted transfer before it leaves the cells it reads. -/
theorem socRegisterReads : Obligations.SocRegisterReads := by
  refine ⟨rfl, rfl, rfl, rfl, rfl, rfl, fun s => ?reads, fun w s => ⟨?control, ?enable⟩, fun s hinv => ?idle, fun s => ?hold,
    fun s => ?rxReset, fun w s habort => ?rxAborted⟩
  case reads =>
    exact ⟨exec_socRdRx s, exec_socRdControl s, exec_socRdStatus s, exec_socRdEvStatus s, exec_socRdEvPending s,
      exec_socRdEvEnable s⟩
  case control =>
    refine ⟨_, (execAll_pair (exec_socWrControl w s) .socRdControl).trans (exec_socRdControl _), ?_⟩
    exact congrArg Response.rdata (bits2_getLsbD w)
  case enable =>
    obtain ⟨t, hwrite, h0, h1⟩ := exec_socWrEvEnable_enables w s
    refine ⟨_, (execAll_pair hwrite .socRdEvEnable).trans (exec_socRdEvEnable t), ?_⟩
    rw [h0, h1, bits2_getLsbD]
    rfl
  case idle =>
    obtain ⟨htip, -⟩ := hinv.idle
    rw [exec_socRdStatus, htip]
    rfl
  case hold => exact ⟨_, (execAll_pair (exec_socRst s) .socRdStatus).trans (exec_socRdStatus _), rfl⟩
  case rxReset => exact ⟨_, (execAll_pair (exec_socRst s) .socRdRx).trans (exec_socRdRx _), rfl⟩
  case rxAborted =>
    have hwrite := exec_socWrTx_of_send (send_aborts habort w)
    exact ⟨_, (execAll_pair hwrite .socRdRx).trans (exec_socRdRx _), rfl⟩

/-- Settles O22, from the equation of the write. -/
theorem socControlWrite : Obligations.SocControlWrite := fun w s => ⟨rfl, exec_socWrControl w s⟩

/-- Settles O32: the second reset finds the state the first one left. -/
theorem socReset : Obligations.SocReset := by
  refine ⟨rfl, fun s => ⟨exec_socRst s, ?again⟩⟩
  case again =>
    rw [execAll_pair (exec_socRst s), execAll_singleton]
    rfl

end Sys2Proof.Machine

namespace Sys2Proof.Machine

/-! Writes of the SoC event registers between operations (10_state.md R45, 41_interrupt_controller.md R122, R123, R125, R126): a
settled instance is one recompute leaves alone, so a write's recomputes, one for each bit, are one at its end. -/

/-- A latched source stays as the latch left it (R122). -/
@[simp] theorem latch_latch (e : EventSource) : latch (latch e) = latch e := latch_of_latched (latched_latch e)

/-- A source whose status is 0 latches nothing (R122). -/
theorem latch_of_status_false {e : EventSource} (h : e.status = false) : latch e = e := by
  simp [latch, h]

/-- A second recompute changes nothing (R122). -/
theorem recompute_recompute (p : Inst) (s : State) : recompute p (recompute p s) = recompute p s := by
  cases p
  case ec => simp only [recompute_ec, latch_latch]
  case soc => simp only [recompute_soc, latch_latch]

/-- A recompute before a source is replaced is made up for by the one after it (R122). -/
theorem recompute_withSource_recompute (p : Inst) (x : Source) (e : EventSource) (s : State) :
    recompute p (withSource x e (recompute p s)) = recompute p (withSource x e s) := by
  cases p
  case ec => cases x <;> simp only [recompute_ec, withSource, latch_latch]
  case soc => cases x <;> simp only [recompute_soc, withSource, latch_latch]

/-- Between operations recompute leaves the SoC alone (R45 I1 and I2). -/
theorem recompute_soc_of_invariant {s : State} (h : Invariant s) : recompute .soc s = s := by
  rw [recompute_soc_of_latched h.socLatched, settleSoc_of_line h.lines.2]

/-- A source after its pending bit met a mask bit, before the latch: it falls where the mask bit is 1 (R123). -/
def cleared (c : Bool) (e : EventSource) : EventSource := { e with pending := e.pending && !c }

/-- A mask bit of 0, or one that meets a clear pending bit, clears nothing (R123). -/
theorem cleared_eq_self {c : Bool} {e : EventSource} (h : (c && e.pending) = false) : cleared c e = e := by
  have hkeep : (e.pending && !c) = e.pending := by
    cases c
    case false => exact Bool.and_true e.pending
    case true => rw [show e.pending = false from h, Bool.false_and]
  rw [cleared, hkeep]

/-- A latched source, cleared and latched again, is acknowledged by R106's formula. -/
theorem latch_cleared {e : EventSource} (h : Latched e) (c : Bool) : latch (cleared c e) = acknowledged c e := by
  cases c
  case false => rw [cleared_eq_self rfl, latch_of_latched h, acknowledged_false]
  case true => rw [← acknowledged_true, cleared, Bool.not_true, Bool.and_false]

/-- One mask bit met by a settled instance: its source is cleared and the instance recomputed, in either case (R105, R123). -/
theorem ackSource_of_settled {p : Inst} {s : State} (h : recompute p s = s) (x : Source) (w : Word) :
    ackSource p x w s = recompute p (withSource x (cleared (w.getLsbD (sourceIndex x)) (sourceOf s x)) s) := by
  unfold ackSource
  split
  case isTrue hset =>
    obtain ⟨hbit, -⟩ := Bool.and_eq_true_iff.mp hset
    rw [hbit, cleared, Bool.not_true, Bool.and_false]
  case isFalse hclear => rw [cleared_eq_self (Bool.eq_false_iff.mpr hclear), withSource_sourceOf, h]

/-- In a settled SoC, recompute after SPI_INT is replaced leaves SPI_HOLD as it was. -/
theorem sourceOf_spiHold_recompute {s : State} (h : recompute .soc s = s) (e : EventSource) :
    sourceOf (recompute .soc (withSource .spiInt e s)) .spiHold = s.soc.spiHold := by
  have hhold : sourceOf (recompute .soc s) .spiHold = s.soc.spiHold := by rw [h, sourceOf_spiHold]
  rw [← hhold, sourceOf_recompute, sourceOf_recompute]
  rfl

/-- Recompute after both sources of the SoC are replaced: each is latched, the line follows, nothing else changes (R122). -/
theorem recompute_soc_withSources (a b : EventSource) (s : State) :
    recompute .soc (withSource .spiHold b (withSource .spiInt a s)) = settleSoc (withSocSources (latch a) (latch b) s) := rfl

/-- A write of SoC EvPending to a settled SoC: both sources met by their mask bits, then one recompute (R201). -/
theorem ackSources_soc {s : State} (h : recompute .soc s = s) (w : Word) :
    ackSource .soc .spiHold w (ackSource .soc .spiInt w s) = settleSoc (withSocSources
      (latch (cleared (w.getLsbD 0) s.soc.spiInt)) (latch (cleared (w.getLsbD 1) s.soc.spiHold)) s) := by
  rw [ackSource_of_settled h, ackSource_of_settled (recompute_recompute _ _), sourceOf_spiHold_recompute h,
    recompute_withSource_recompute, recompute_soc_withSources]
  rfl

/-- A write of SoC EvEnable to a settled SoC: both enable bits stored, then one recompute (R203). -/
theorem enableSources_soc {s : State} (h : recompute .soc s = s) (w : Word) :
    enableSource .soc .spiHold w (enableSource .soc .spiInt w s) = settleSoc (withSocSources
      (masked (w.getLsbD 0) s.soc.spiInt) (masked (w.getLsbD 1) s.soc.spiHold) s) := by
  simp only [enableSource, sourceOf_spiHold_recompute h, recompute_withSource_recompute, recompute_soc_withSources,
    masked_latch]
  rfl

/-- A source whose status is 0 latches nothing when its enable bit is stored (R125, R203). -/
theorem masked_of_status_false {e : EventSource} (h : e.status = false) (b : Bool) : masked b e = { e with enable := b } := by
  rw [← masked_latch]
  exact latch_of_status_false h

/-- Settles O24: SPI_INT's status is 0 by I3, so clearing it latches nothing; SPI_HOLD is acknowledged by R106's formula. -/
theorem socAcknowledge : Obligations.SocAcknowledge := by
  intro w s hinv
  refine ⟨rfl, ?_⟩
  obtain ⟨-, hstatus⟩ := hinv.idle
  obtain ⟨-, hhold⟩ := hinv.socLatched
  have hint : latch (cleared (w.getLsbD 0) s.soc.spiInt) = cleared (w.getLsbD 0) s.soc.spiInt := latch_of_status_false hstatus
  rw [exec_socWrEvPending, ackSources_soc (recompute_soc_of_invariant hinv), hint, latch_cleared hhold]
  rfl

/-- Settles O26: both bits are stored by R125 and R126, and SPI_INT's status is 0 by I3, so it latches nothing. -/
theorem socEnableWrite : Obligations.SocEnableWrite := by
  intro w s hinv
  refine ⟨rfl, ?_⟩
  obtain ⟨-, hstatus⟩ := hinv.idle
  rw [exec_socWrEvEnable, enableSources_soc (recompute_soc_of_invariant hinv), masked_of_status_false hstatus]
  rfl

end Sys2Proof.Machine

namespace Sys2Proof

/-! The decoder on a record whose selector is given by kind and offset, and on the operands the encoder writes (30_encoding.md
R71-R77). -/

theorem decode_rd (mode : HoldStatusMode) (p : Inst) (off : Offset) (w : Word) :
    decode mode ⟨p, selector .rd off, w⟩ = .ok (decodeRd p off) := by
  simp only [decode, selKind_selector, selOff_selector]

theorem decode_wr (mode : HoldStatusMode) (p : Inst) (off : Offset) (w : Word) :
    decode mode ⟨p, selector .wr off, w⟩ = .ok (decodeWr p off w) := by
  simp only [decode, selKind_selector, selOff_selector]

theorem decode_envEc (mode : HoldStatusMode) (off : Offset) (w : Word) :
    decode mode ⟨.ec, selector .env off, w⟩ = decodeEnvEc off w := by
  simp only [decode, selKind_selector, selOff_selector]

theorem decode_envSoc (mode : HoldStatusMode) (off : Offset) (w : Word) :
    decode mode ⟨.soc, selector .env off, w⟩ = decodeEnvSoc mode off w := by
  simp only [decode, selKind_selector, selOff_selector]

@[simp] theorem bitOperand_bitWord (b : Bool) : bitOperand (bitWord b) = .ok b := by cases b <;> rfl

@[simp] theorem deviceOperand_deviceCode (d : Device) : deviceOperand (deviceCode d) = .ok d := by cases d <;> rfl

@[simp] theorem byteOperand_setWidth (b : Byte) : byteOperand (b.setWidth 32) = .ok b := by
  have hlt : b.toNat < 256 := b.isLt
  have hle : b.setWidth 32 ≤ (0xFF : Word) := by
    rw [BitVec.le_def, BitVec.toNat_setWidth_of_le (by decide)]
    exact Nat.le_of_lt_succ hlt
  have hback : (b.setWidth 32).setWidth 8 = b := by simp
  rw [byteOperand, if_pos hle, hback]

/-! The two ranges of indexed environment offsets of the EC: SET_STATUS at `0x100 + src`, ECSTAT_SET at `0x400 + k` (R74). -/

/-- The offset of the status driver of source `src` (R74). -/
def setStatusOff (src : BitVec 2) : Offset := 0x100 ||| src.setWidth 12

/-- The offset of the Status field driver of position `k` (R74). -/
def ecstatSetOff (k : BitVec 5) : Offset := 0x400 ||| k.setWidth 12

theorem setStatusOff_toNat : ∀ src : BitVec 2, (setStatusOff src).toNat = 0x100 + src.toNat := by decide

theorem ecstatSetOff_toNat : ∀ k : BitVec 5, (ecstatSetOff k).toNat = 0x400 + k.toNat := by decide

/-- SET_STATUS's mask takes only the four offsets of its range (R74). -/
theorem eq_setStatusOff_of_mask {off : Offset} (h : off &&& 0xFFC = 0x100) : off = setStatusOff (off.extractLsb' 0 2) := by
  have hsplit : off = (off &&& 0xFFC) ||| (off.extractLsb' 0 2).setWidth 12 := by
    apply BitVec.eq_of_getLsbD_eq
    intro j hj
    interval_cases j <;> simp
  rw [h] at hsplit
  exact hsplit

/-- ECSTAT_SET's mask takes only the 32 offsets of its range (R74). -/
theorem eq_ecstatSetOff_of_mask {off : Offset} (h : off &&& 0xFE0 = 0x400) : off = ecstatSetOff (off.extractLsb' 0 5) := by
  have hsplit : off = (off &&& 0xFE0) ||| (off.extractLsb' 0 5).setWidth 12 := by
    apply BitVec.eq_of_getLsbD_eq
    intro j hj
    interval_cases j <;> simp
  rw [h] at hsplit
  exact hsplit

/-- The EC's environment decoder in the range of SET_STATUS (R172). -/
theorem decodeEnvEc_setStatus (src : BitVec 2) (w : Word) : decodeEnvEc (setStatusOff src) w =
    if src = 3 then .error .operand else (bitOperand w).map (.ecEnvSetStatus src) := by
  have hrange : ∀ a : BitVec 2, setStatusOff a &&& 0xFFC = 0x100 ∧ (setStatusOff a).extractLsb' 0 2 = a := by decide
  obtain ⟨hmask, hidx⟩ := hrange src
  rw [decodeEnvEc, if_pos hmask, hidx]

/-- The EC's environment decoder in the range of ECSTAT_SET (R173). -/
theorem decodeEnvEc_ecstatSet (k : BitVec 5) (w : Word) : decodeEnvEc (ecstatSetOff k) w =
    if isEcstatPosition k then (bitOperand w).map (.ecEnvEcstatSet k) else .error .operand := by
  have hrange : ∀ a : BitVec 5, ecstatSetOff a &&& 0xFFC ≠ 0x100 ∧ ecstatSetOff a ≠ 0x300 ∧
      ecstatSetOff a &&& 0xFE0 = 0x400 ∧ (ecstatSetOff a).extractLsb' 0 5 = a := by decide
  obtain ⟨hstatus, hxfer, hmask, hidx⟩ := hrange k
  rw [decodeEnvEc, if_neg hstatus, if_neg hxfer, if_pos hmask, hidx]

/-- The EC's environment decoder at XFER (R174). -/
theorem decodeEnvEc_xfer (w : Word) : decodeEnvEc 0x300 w = (byteOperand w).map .ecEnvXfer := rfl

/-- Outside the EC's three rows every environment offset is reserved (R78). -/
theorem decodeEnvEc_reserved {off : Offset} (hstatus : ∀ src, off ≠ setStatusOff src) (hxfer : off ≠ 0x300)
    (hecstat : ∀ k, off ≠ ecstatSetOff k) (w : Word) : decodeEnvEc off w = .error .selector := by
  rw [decodeEnvEc, if_neg (mt eq_setStatusOff_of_mask (hstatus _)), if_neg hxfer,
    if_neg (mt eq_ecstatSetOff_of_mask (hecstat _))]

/-! The SoC's environment rows: HOLD_SET at 0x000, SET_STATUS at 0x101, ATTACH at 0x200, DETACH at 0x201 (R74). -/

/-- Outside the SoC's four rows every environment offset is reserved (R78). -/
theorem decodeEnvSoc_reserved {off : Offset} (hhold : off ≠ 0x000) (hstatus : off ≠ 0x101) (hattach : off ≠ 0x200)
    (hdetach : off ≠ 0x201) (mode : HoldStatusMode) (w : Word) : decodeEnvSoc mode off w = .error .selector := by
  simp only [decodeEnvSoc, if_neg hhold, if_neg hstatus, if_neg hattach, if_neg hdetach]

theorem decodeEnvSoc_hold (mode : HoldStatusMode) (w : Word) :
    decodeEnvSoc mode 0x000 w = (bitOperand w).map .socEnvHoldSet := rfl

theorem decodeEnvSoc_status (w : Word) :
    decodeEnvSoc .environment 0x101 w = (bitOperand w).map .socEnvSetStatus := rfl

/-- SPI_HOLD status is not offered in Coupled mode (R208). -/
theorem decodeEnvSoc_status_coupled (w : Word) : decodeEnvSoc .coupled 0x101 w = .error .selector := rfl

theorem decodeEnvSoc_attach (mode : HoldStatusMode) (w : Word) :
    decodeEnvSoc mode 0x200 w = (deviceOperand w).map .socEnvAttach := rfl

/-! The record the encoder writes (R70, R71). -/

/-- A record names the operation's instance and, in its selector, the operation's format. -/
theorem encode_eq (i : Instr) : encode i = ⟨i.inst, selector i.kind (selOff (encode i).sel), (encode i).operand⟩ := by
  cases i <;> simp only [encode, Instr.inst, Instr.kind, selOff_selector]

theorem encode_inst (i : Instr) : (encode i).inst = i.inst := by rw [encode_eq]

/-- A well-formed read is the row of its own offset (R77). -/
theorem decodeRd_encode {i : Instr} (hk : i.kind = .rd) (hwf : WellFormed i = true) :
    decodeRd i.inst (selOff (encode i).sel) = i := by
  cases i <;> try cases hk
  case ecRdUnmapped off =>
    rw [encode, selOff_selector]
    exact decodeRd_unmapped (p := .ec) (by simpa [WellFormed] using hwf)
  case socRdUnmapped off =>
    rw [encode, selOff_selector]
    exact decodeRd_unmapped (p := .soc) (by simpa [WellFormed] using hwf)
  all_goals rfl

/-- A well-formed write is the row of its own offset, with its own word (R77). -/
theorem decodeWr_encode {i : Instr} (hk : i.kind = .wr) (hwf : WellFormed i = true) :
    decodeWr i.inst (selOff (encode i).sel) (encode i).operand = i := by
  cases i <;> try cases hk
  case ecWrUnmapped off w =>
    rw [encode, selOff_selector]
    exact decodeWr_unmapped (p := .ec) (by simpa [WellFormed] using hwf) w
  case socWrUnmapped off w =>
    rw [encode, selOff_selector]
    exact decodeWr_unmapped (p := .soc) (by simpa [WellFormed] using hwf) w
  all_goals
    rw [encode, selOff_selector]
    rfl

/-- A well-formed environment input the mode offers: its index and its operand are read back as they were written (R74). -/
theorem decode_encode_of_env {mode : HoldStatusMode} {i : Instr} (hk : i.kind = .env) (hwf : WellFormed i = true)
    (hoffered : i.offered mode = true) : decode mode (encode i) = .ok i := by
  cases i <;> try cases hk
  case ecEnvSetStatus src b =>
    have hsrc : src ≠ 3 := by simpa [WellFormed] using hwf
    refine (decode_envEc mode (setStatusOff src) (bitWord b)).trans ?_
    rw [decodeEnvEc_setStatus, if_neg hsrc, bitOperand_bitWord, Except.map]
  case ecEnvXfer b =>
    refine (decode_envEc mode 0x300 (b.setWidth 32)).trans ?_
    rw [decodeEnvEc_xfer, byteOperand_setWidth, Except.map]
  case ecEnvEcstatSet k b =>
    refine (decode_envEc mode (ecstatSetOff k) (bitWord b)).trans ?_
    rw [decodeEnvEc_ecstatSet, if_pos (show isEcstatPosition k = true from hwf), bitOperand_bitWord, Except.map]
  case socEnvHoldSet level =>
    refine (decode_envSoc mode 0x000 (bitWord level)).trans ?_
    rw [decodeEnvSoc_hold, bitOperand_bitWord, Except.map]
  case socEnvSetStatus b =>
    obtain rfl : mode = .environment := by simpa [Instr.offered] using hoffered
    refine (decode_envSoc .environment 0x101 (bitWord b)).trans ?_
    rw [decodeEnvSoc_status, bitOperand_bitWord, Except.map]
  case socEnvAttach d =>
    refine (decode_envSoc mode 0x200 (deviceCode d)).trans ?_
    rw [decodeEnvSoc_attach, deviceOperand_deviceCode, Except.map]
  case socEnvDetach => exact decode_envSoc mode 0x201 0

/-! What the decoder can answer (R77). -/

/-- `i` is an operation the encoding spells and the mode offers, with this record; a write keeps its word. -/
structure Spells (mode : HoldStatusMode) (i : Instr) (r : OpRecord) : Prop where
  wellFormed : WellFormed i = true
  offered : i.offered mode = true
  inst : (encode i).inst = r.inst
  sel : (encode i).sel = r.sel
  word : i.kind = .wr → (encode i).operand = r.operand

/-- Every read offset has a row that spells it: its register's, or the unmapped one. -/
theorem spells_decodeRd (mode : HoldStatusMode) (p : Inst) (off : Offset) (w : Word) :
    Spells mode (decodeRd p off) ⟨p, selector .rd off, w⟩ := by
  cases h : mapped p off
  case false =>
    rw [decodeRd_unmapped h]
    cases p
    case ec => exact ⟨congrArg not h, rfl, rfl, rfl, nofun⟩
    case soc => exact ⟨congrArg not h, rfl, rfl, rfl, nofun⟩
  case true =>
    have hmem : off ∈ mappedOffsets p := List.contains_iff_mem.mp h
    cases p <;> simp only [mappedOffsets, List.mem_cons, List.not_mem_nil, or_false] at hmem
    case ec => rcases hmem with rfl | rfl | rfl | rfl | rfl <;> exact ⟨rfl, rfl, rfl, rfl, nofun⟩
    case soc => rcases hmem with rfl | rfl | rfl | rfl | rfl | rfl | rfl <;> exact ⟨rfl, rfl, rfl, rfl, nofun⟩

/-- Every write offset has a row that spells it and keeps the word. -/
theorem spells_decodeWr (mode : HoldStatusMode) (p : Inst) (off : Offset) (w : Word) :
    Spells mode (decodeWr p off w) ⟨p, selector .wr off, w⟩ := by
  cases h : mapped p off
  case false =>
    rw [decodeWr_unmapped h]
    cases p
    case ec => exact ⟨congrArg not h, rfl, rfl, rfl, fun _ => rfl⟩
    case soc => exact ⟨congrArg not h, rfl, rfl, rfl, fun _ => rfl⟩
  case true =>
    have hmem : off ∈ mappedOffsets p := List.contains_iff_mem.mp h
    cases p <;> simp only [mappedOffsets, List.mem_cons, List.not_mem_nil, or_false] at hmem
    case ec => rcases hmem with rfl | rfl | rfl | rfl | rfl <;> exact ⟨rfl, rfl, rfl, rfl, fun _ => rfl⟩
    case soc => rcases hmem with rfl | rfl | rfl | rfl | rfl | rfl | rfl <;> exact ⟨rfl, rfl, rfl, rfl, fun _ => rfl⟩

/-- An operand in range is handed to the row as it was read. -/
theorem exists_of_map_eq_ok {α : Type} {x : Except Reject α} {f : α → Instr} {i : Instr} (h : x.map f = .ok i) :
    ∃ a, f a = i := by
  cases x with
  | error e => cases h
  | ok a => exact ⟨a, Except.ok.inj h⟩

/-- What the EC's environment decoder answers spells its record. -/
theorem spells_of_decodeEnvEc (mode : HoldStatusMode) {off : Offset} {w : Word} {i : Instr} (h : decodeEnvEc off w = .ok i) :
    Spells mode i ⟨.ec, selector .env off, w⟩ := by
  by_cases hstatus : ∃ src, off = setStatusOff src
  · obtain ⟨src, rfl⟩ := hstatus
    rw [decodeEnvEc_setStatus] at h
    split at h
    case isTrue => cases h
    case isFalse hsrc =>
      obtain ⟨b, rfl⟩ := exists_of_map_eq_ok h
      exact ⟨bne_iff_ne.mpr hsrc, rfl, rfl, rfl, nofun⟩
  by_cases hxfer : off = 0x300
  · subst hxfer
    obtain ⟨b, rfl⟩ := exists_of_map_eq_ok h
    exact ⟨rfl, rfl, rfl, rfl, nofun⟩
  by_cases hecstat : ∃ k, off = ecstatSetOff k
  · obtain ⟨k, rfl⟩ := hecstat
    rw [decodeEnvEc_ecstatSet] at h
    split at h
    case isTrue hk =>
      obtain ⟨b, rfl⟩ := exists_of_map_eq_ok h
      exact ⟨hk, rfl, rfl, rfl, nofun⟩
    case isFalse => cases h
  rw [decodeEnvEc_reserved (not_exists.mp hstatus) hxfer (not_exists.mp hecstat)] at h
  cases h

/-- What the SoC's environment decoder answers spells its record. -/
theorem spells_of_decodeEnvSoc {mode : HoldStatusMode} {off : Offset} {w : Word} {i : Instr}
    (h : decodeEnvSoc mode off w = .ok i) : Spells mode i ⟨.soc, selector .env off, w⟩ := by
  by_cases hhold : off = 0x000
  · subst hhold
    obtain ⟨b, rfl⟩ := exists_of_map_eq_ok h
    exact ⟨rfl, rfl, rfl, rfl, nofun⟩
  by_cases hstatus : off = 0x101
  · subst hstatus
    cases mode
    case coupled => cases h
    case environment =>
      obtain ⟨b, rfl⟩ := exists_of_map_eq_ok h
      exact ⟨rfl, rfl, rfl, rfl, nofun⟩
  by_cases hattach : off = 0x200
  · subst hattach
    obtain ⟨d, rfl⟩ := exists_of_map_eq_ok h
    exact ⟨rfl, rfl, rfl, rfl, nofun⟩
  by_cases hdetach : off = 0x201
  · subst hdetach
    cases h
    exact ⟨rfl, rfl, rfl, rfl, nofun⟩
  rw [decodeEnvSoc_reserved hhold hstatus hattach hdetach] at h
  cases h

theorem decode_rst (mode : HoldStatusMode) (p : Inst) (off : Offset) (w : Word) : decode mode ⟨p, selector .rst off, w⟩ =
    if off = 0 then .ok (Machine.resetOf p) else .error .selector := by
  simp only [decode, selKind_selector, selOff_selector]
  cases p <;> rfl

/-- Whatever the decoder answers spells the record it read. -/
theorem spells_of_decode {mode : HoldStatusMode} {r : OpRecord} {i : Instr} (h : decode mode r = .ok i) : Spells mode i r := by
  obtain ⟨p, sel, w⟩ := r
  rw [← selector_selKind_selOff sel] at h ⊢
  generalize selOff sel = off, selKind sel = k at h ⊢
  cases k
  case rd =>
    rw [decode_rd] at h
    cases h
    exact spells_decodeRd mode p off w
  case wr =>
    rw [decode_wr] at h
    cases h
    exact spells_decodeWr mode p off w
  case rst =>
    rw [decode_rst] at h
    split at h <;> cases h
    subst off
    cases p <;> exact ⟨rfl, rfl, rfl, rfl, nofun⟩
  case env =>
    cases p
    case ec =>
      rw [decode_envEc] at h
      exact spells_of_decodeEnvEc mode h
    case soc =>
      rw [decode_envSoc] at h
      exact spells_of_decodeEnvSoc h

/-! Operands out of range (R77). -/

theorem bitOperand_of_gt {w : Word} (h : 1 < w.toNat) : bitOperand w = .error .operand := by
  have h0 : w ≠ 0 := by rintro rfl; exact absurd h (by decide)
  have h1 : w ≠ 1 := by rintro rfl; exact absurd h (by decide)
  rw [bitOperand, if_neg h0, if_neg h1]

theorem byteOperand_of_gt {w : Word} (h : 0xFF < w.toNat) : byteOperand w = .error .operand := by
  have hgt : ¬ w ≤ (0xFF : Word) := by
    rw [BitVec.le_def]
    exact Nat.not_le.mpr h
  rw [byteOperand, if_neg hgt]

theorem deviceOperand_of_gt {w : Word} (h : 3 < w.toNat) : deviceOperand w = .error .operand := by
  have hne : ∀ c : Word, c.toNat ≤ 3 → w ≠ c := by rintro c hc rfl; omega
  rw [deviceOperand, if_neg (hne 0 (by decide)), if_neg (hne 1 (by decide)), if_neg (hne 2 (by decide)),
    if_neg (hne 3 (by decide))]

end Sys2Proof

namespace Sys2Proof.Machine

/-- Settles O2: an access is the row of its own offset, a reset the one row of its format, and an environment input's index and
operand are read back as they were written. -/
theorem decodeOfEncode : Obligations.DecodeOfEncode := by
  intro mode i hwf hoffered
  cases hk : i.kind
  case rd => rw [encode_eq, hk, decode_rd, decodeRd_encode hk hwf]
  case wr => rw [encode_eq, hk, decode_wr, decodeWr_encode hk hwf]
  case rst =>
    cases i <;> try cases hk
    case ecRst => exact decode_rst mode .ec 0 0
    case socRst => exact decode_rst mode .soc 0 0
  case env => exact decode_encode_of_env hk hwf hoffered

/-- Settles O1: the ten words, evaluated. -/
theorem operationWordsDecode : Obligations.OperationWordsDecode :=
  ⟨rfl, rfl, rfl, rfl, rfl, rfl, rfl, rfl, rfl, rfl⟩

/-- Settles O3, format by format. -/
theorem decodedSpellsItsRecord : Obligations.DecodedSpellsItsRecord := by
  intro mode r i h
  obtain ⟨hwf, hoffered, hinst, hsel, hword⟩ := spells_of_decode h
  exact ⟨hwf, hoffered, hinst, hsel, hword⟩

/-- Settles O4: the decoder's rows of RD and of WR leave no offset out. -/
theorem busAccessAlwaysDecodes : Obligations.BusAccessAlwaysDecodes := by
  intro mode p d off w
  cases d
  case rd =>
    have hrow := spells_decodeRd mode p off w
    exact ⟨_, decode_rd mode p off w, (encode_inst _).symm.trans hrow.inst, hrow.sel⟩
  case wr =>
    have hrow := spells_decodeWr mode p off w
    exact ⟨_, decode_wr mode p off w, (encode_inst _).symm.trans hrow.inst, hrow.sel⟩

/-- Settles O5: an offset outside the listed ranges is none of the rows'. -/
theorem reservedSelectorsRefused : Obligations.ReservedSelectorsRefused := by
  intro mode off w
  refine ⟨fun p hoff => ?rst, fun hstatus hxfer hecstat => ?ec, fun hhold hstatus hattach hdetach => ?soc, ?coupled⟩
  case rst => rw [decode_rst, if_neg hoff]
  case ec =>
    rw [decode_envEc]
    refine decodeEnvEc_reserved ?_ ?_ ?_ w
    · rintro src rfl
      exact hstatus src.toNat src.isLt (setStatusOff_toNat src)
    · rintro rfl
      exact hxfer rfl
    · rintro k rfl
      exact hecstat k.toNat k.isLt (ecstatSetOff_toNat k)
  case soc => rw [decode_envSoc, decodeEnvSoc_reserved hhold hstatus hattach hdetach]
  case coupled => rw [decode_envSoc, decodeEnvSoc_status_coupled]

/-- Settles O6: the row is found and its operand or its index is out of range. -/
theorem operandsOutOfRangeRefused : Obligations.OperandsOutOfRangeRefused := by
  intro mode w
  have hindex3 : decode mode ⟨.ec, selector .env 0x103, w⟩ = .error .operand := by
    refine (decode_envEc mode (setStatusOff 3) w).trans ?_
    rw [decodeEnvEc_setStatus, if_pos rfl]
  refine ⟨fun hbit => ⟨fun src => ?status, fun k => ?ecstat, ?hold, ?socStatus⟩, hindex3, fun k hk => ?position,
    fun hbyte => ?byte, fun hdevice => ?device⟩
  case status =>
    refine (decode_envEc mode (setStatusOff src) w).trans ?_
    rw [decodeEnvEc_setStatus, bitOperand_of_gt hbit, Except.map, ite_self]
  case ecstat =>
    refine (decode_envEc mode (ecstatSetOff k) w).trans ?_
    rw [decodeEnvEc_ecstatSet, bitOperand_of_gt hbit, Except.map, ite_self]
  case hold => rw [decode_envSoc, decodeEnvSoc_hold, bitOperand_of_gt hbit, Except.map]
  case socStatus => rw [decode_envSoc, decodeEnvSoc_status, bitOperand_of_gt hbit, Except.map]
  case position =>
    refine (decode_envEc mode (ecstatSetOff k) w).trans ?_
    rw [decodeEnvEc_ecstatSet, hk, if_neg Bool.false_ne_true]
  case byte => rw [decode_envEc, decodeEnvEc_xfer, byteOperand_of_gt hbyte, Except.map]
  case device => rw [decode_envSoc, decodeEnvSoc_attach, deviceOperand_of_gt hdevice, Except.map]

end Sys2Proof.Machine

namespace Sys2Proof.Machine

/-! An operation's frame, read off its locality (10_state.md R46): it is its own instance, and its own instance's draws, that move. -/

@[simp] theorem graft_self (p : Inst) (s : State) : graft p s s = s := by cases p <;> rfl

/-- What an operation leaves is the state before with the operation's own instance, and the answer, replaced. -/
theorem exec_eq_graft {i : Instr} {s t : State} (h : exec i s = .next t) :
    t = { graft i.inst t s with result := t.result } := by
  have hlocal := exec_graft i (s := s) (t := s) rfl
  rw [graft_self, h] at hlocal
  exact Host.Outcome.next.inj hlocal

theorem exec_soc_of_ec {i : Instr} {s t : State} (h : exec i s = .next t) (hi : i.inst = .ec) : t.soc = s.soc := by
  rw [exec_eq_graft h, hi]
  rfl

theorem exec_ec_of_soc {i : Instr} {s t : State} (h : exec i s = .next t) (hi : i.inst = .soc) : t.ec = s.ec := by
  rw [exec_eq_graft h, hi]
  rfl

theorem exec_params {i : Instr} {s t : State} (h : exec i s = .next t) : t.params = s.params := by
  rw [exec_eq_graft h]
  cases i.inst <;> rfl

/-- Settles O51: every clause is a field of the frame. -/
theorem instancesAreSeparate : Obligations.InstancesAreSeparate := by
  intro i s t h
  have hframe := exec_eq_graft h
  refine ⟨fun hi => ?ec, fun hi => ?soc, exec_params h, ?requests, ?count⟩
  case ec =>
    rw [hi] at hframe
    exact ⟨exec_soc_of_ec h hi, congrArg (·.draws.soc) hframe, congrArg (·.draws.device) hframe⟩
  case soc =>
    rw [hi] at hframe
    exact ⟨exec_ec_of_soc h hi, congrArg (·.draws.ec) hframe⟩
  case requests =>
    rw [hframe]
    cases i.inst <;> rfl
  case count =>
    rw [hframe]
    cases i.inst <;> rfl

end Sys2Proof.Machine

namespace Sys2Proof.Machine

/-! The invariant, one instance at a time (10_state.md R45): an operation of one instance has the other's half for free. -/

/-- A settled SoC: its sources latched and its line following them (R45 I1 and I2). -/
abbrev SocSettled (s : State) : Prop := SocLatched s ∧ s.soc.line = socRequests s

/-- The EC's half of the invariant. -/
abbrev EcInvariant (s : State) : Prop := EcSettled s ∧ EcstatReserved s

/-- The SoC's half of the invariant. -/
abbrev SocInvariant (s : State) : Prop := SocSettled s ∧ EngineIdle s

theorem invariant_iff (s : State) : Invariant s ↔ EcInvariant s ∧ SocInvariant s := by
  constructor
  · rintro ⟨hel, hsl, ⟨heline, hsline⟩, hidle, hres⟩
    exact ⟨⟨⟨hel, heline⟩, hres⟩, ⟨hsl, hsline⟩, hidle⟩
  · rintro ⟨⟨⟨hel, heline⟩, hres⟩, ⟨hsl, hsline⟩, hidle⟩
    exact ⟨hel, hsl, ⟨heline, hsline⟩, hidle, hres⟩

/-- The EC's half speaks of the EC alone. -/
theorem EcInvariant.congr {s t : State} (h : EcInvariant s) (he : t.ec = s.ec) : EcInvariant t := by
  simpa only [EcInvariant, EcSettled, EcLatched, EcstatReserved, ecRequests, he] using h

/-- The SoC's half speaks of the SoC alone. -/
theorem SocInvariant.congr {s t : State} (h : SocInvariant s) (hs : t.soc = s.soc) : SocInvariant t := by
  simpa only [SocInvariant, SocSettled, SocLatched, EngineIdle, socRequests, hs] using h

/-- Where the SoC is as it was, the EC's half is what is left to show. -/
theorem Invariant.of_ec {s t : State} (h : Invariant s) (hs : t.soc = s.soc) (he : EcInvariant t) : Invariant t :=
  (invariant_iff t).mpr ⟨he, ((invariant_iff s).mp h).2.congr hs⟩

/-- Where the EC is as it was, the SoC's half is what is left to show. -/
theorem Invariant.of_soc {s t : State} (h : Invariant s) (he : t.ec = s.ec) (hs : SocInvariant t) : Invariant t :=
  (invariant_iff t).mpr ⟨((invariant_iff s).mp h).1.congr he, hs⟩

/-- Where both instances are as they were, so is the invariant. -/
theorem Invariant.congr {s t : State} (h : Invariant s) (he : t.ec = s.ec) (hs : t.soc = s.soc) : Invariant t :=
  h.of_ec hs (((invariant_iff s).mp h).1.congr he)

/-! What the shared updates of the sources keep (41_interrupt_controller.md R120-R126). -/

/-- Recompute settles the SoC, whatever the state before (R122). -/
theorem socSettled_recompute (s : State) : SocSettled (recompute .soc s) :=
  ⟨⟨latched_latch _, latched_latch _⟩, recompute_soc_line s⟩

/-- One mask bit keeps the SoC settled. -/
theorem socSettled_ackSource {s : State} (h : SocSettled s) (x : Source) (w : Word) : SocSettled (ackSource .soc x w s) := by
  unfold ackSource
  split
  · exact socSettled_recompute _
  · exact h

/-- Recompute moves no status facet (R122). -/
@[simp] theorem recompute_status (p : Inst) (s : State) (x : Source) :
    (sourceOf (recompute p s) x).status = (sourceOf s x).status := by
  rw [sourceOf_recompute]
  split <;> simp

/-- Recompute moves no enable facet (R122). -/
@[simp] theorem recompute_enable (p : Inst) (s : State) (x : Source) :
    (sourceOf (recompute p s) x).enable = (sourceOf s x).enable := by
  rw [sourceOf_recompute]
  split <;> simp

/-- Recompute clears nothing (R122). -/
theorem recompute_pending {s : State} {x : Source} (h : (sourceOf s x).pending = true) (p : Inst) :
    (sourceOf (recompute p s) x).pending = true := by
  rw [sourceOf_recompute]
  split <;> simp [h]

/-- Replacing a source by one with the same status moves no status. -/
theorem withSource_status {x : Source} {e : EventSource} {s : State} (h : e.status = (sourceOf s x).status) (y : Source) :
    (sourceOf (withSource x e s) y).status = (sourceOf s y).status := by
  by_cases hy : y = x
  · subst hy
    rw [sourceOf_withSource, h]
  · rw [sourceOf_withSource_of_ne hy]

/-- Replacing a source by one with the same enable moves no enable. -/
theorem withSource_enable {x : Source} {e : EventSource} {s : State} (h : e.enable = (sourceOf s x).enable) (y : Source) :
    (sourceOf (withSource x e s) y).enable = (sourceOf s y).enable := by
  by_cases hy : y = x
  · subst hy
    rw [sourceOf_withSource, h]
  · rw [sourceOf_withSource_of_ne hy]

@[simp] theorem ackSource_status (p : Inst) (x : Source) (w : Word) (s : State) (y : Source) :
    (sourceOf (ackSource p x w s) y).status = (sourceOf s y).status := by
  unfold ackSource
  split
  · exact (recompute_status _ _ _).trans (withSource_status (by rfl) y)
  · rfl

@[simp] theorem ackSource_enable (p : Inst) (x : Source) (w : Word) (s : State) (y : Source) :
    (sourceOf (ackSource p x w s) y).enable = (sourceOf s y).enable := by
  unfold ackSource
  split
  · exact (recompute_enable _ _ _).trans (withSource_enable (by rfl) y)
  · rfl

@[simp] theorem enableSource_status (p : Inst) (x : Source) (w : Word) (s : State) (y : Source) :
    (sourceOf (enableSource p x w s) y).status = (sourceOf s y).status := by
  exact (recompute_status _ _ _).trans (withSource_status (by rfl) y)

@[simp] theorem driveStatus_enable (x : Source) (b : Bool) (s : State) (y : Source) :
    (sourceOf (driveStatus x b s) y).enable = (sourceOf s y).enable := by
  rw [driveStatus, recompute_enable, setStatus_eq]
  exact withSource_enable (by rfl) y

/-- A status driver leaves the status of every other source. -/
theorem driveStatus_status_of_ne {x y : Source} (h : y ≠ x) (b : Bool) (s : State) :
    (sourceOf (driveStatus x b s) y).status = (sourceOf s y).status := by
  rw [driveStatus, recompute_status, setStatus_eq, sourceOf_withSource_of_ne h]

/-! What they leave alone: everything that is no facet, no line and no answer. -/

/-- The machine with its facets, its lines and the last answer blanked. -/
def bare (s : State) : State :=
  { s with
    ec := { s.ec with spiAvail := quietSource, spiEvent := quietSource, spiErr := quietSource, line := false }
    soc := { s.soc with spiInt := quietSource, spiHold := quietSource, line := false }
    result := .none }

@[simp] theorem bare_respond (r : Response) (s : State) : bare (respond r s) = bare s := rfl

@[simp] theorem bare_withSource (x : Source) (e : EventSource) (s : State) : bare (withSource x e s) = bare s := by
  cases x <;> rfl

@[simp] theorem bare_recompute (p : Inst) (s : State) : bare (recompute p s) = bare s := by cases p <;> rfl

@[simp] theorem bare_ackSource (p : Inst) (x : Source) (w : Word) (s : State) : bare (ackSource p x w s) = bare s := by
  unfold ackSource
  split
  · rw [bare_recompute, bare_withSource]
  · rfl

@[simp] theorem bare_enableSource (p : Inst) (x : Source) (w : Word) (s : State) : bare (enableSource p x w s) = bare s := by
  rw [enableSource, bare_recompute, bare_withSource]

@[simp] theorem bare_driveStatus (x : Source) (b : Bool) (s : State) : bare (driveStatus x b s) = bare s := by
  rw [driveStatus, bare_recompute, setStatus_eq, bare_withSource]

@[simp] theorem bare_finishedInterrupt (s : State) : bare (finishedInterrupt s) = bare s := by
  rw [finishedInterrupt_eq]
  split <;> rfl

/-! Every operation keeps the invariant. -/

/-- The drivers of EC Status reach its eight bits only (R22, R173). -/
theorem ecstatReserved_withBit {e : Word} (h : e &&& ~~~ecstatMask = 0) {k : BitVec 5} (hk : isEcstatPosition k = true)
    (b : Bool) : withBit e k.toNat b &&& ~~~ecstatMask = 0 := by
  have hmask : ∀ k : BitVec 5, isEcstatPosition k = true → ecstatMask.getLsbD k.toNat = true := by decide
  apply BitVec.eq_of_getLsbD_eq
  intro j hj
  have hold := congrArg (BitVec.getLsbD · j) h
  simp only [BitVec.getLsbD_and, BitVec.getLsbD_not, hj, decide_true, Bool.true_and] at hold ⊢
  rw [withBit_getLsbD e k.toNat b j hj]
  by_cases hjk : j = k.toNat
  · subst hjk
    simp [hmask k hk]
  · rw [if_neg hjk]
    exact hold

/-- The source an EC index names is one of the EC's (R172). -/
theorem sourceInst_of_ecSource {k : BitVec 2} {x : Source} (h : ecSource k = some x) : sourceInst x = .ec := by
  unfold ecSource at h
  (repeat' split at h) <;> cases h <;> rfl

/-- Driving a status of the EC settles it. -/
theorem ecSettled_driveStatus {x : Source} (h : sourceInst x = .ec) (b : Bool) (s : State) : EcSettled (driveStatus x b s) := by
  rw [driveStatus, h]
  exact ecSettled_recompute _

/-- Reserved bits of EC Status are no facet. -/
theorem EcstatReserved.congr {s t : State} (h : EcstatReserved s) (hbare : bare t = bare s) : EcstatReserved t := by
  have he : t.ec.ecstat = s.ec.ecstat := congrArg (·.ec.ecstat) hbare
  rw [EcstatReserved, he]
  exact h

/-- TIP is no facet, so an engine stays idle where SPI_INT's status is as it was. -/
theorem EngineIdle.congr {s t : State} (h : EngineIdle s) (hbare : bare t = bare s)
    (hst : (sourceOf t .spiInt).status = (sourceOf s .spiInt).status) : EngineIdle t := by
  have htip : t.soc.tip = s.soc.tip := congrArg (·.soc.tip) hbare
  exact ⟨htip.trans h.1, hst.trans h.2⟩

/-- Driving SPI_HOLD's status keeps the SoC's half. -/
theorem SocInvariant.driveHold {s : State} (h : SocInvariant s) (b : Bool) : SocInvariant (driveStatus .spiHold b s) :=
  ⟨socSettled_recompute _, EngineIdle.congr h.2 (bare_driveStatus _ _ _) (driveStatus_status_of_ne (by decide) b s)⟩

/-- The finished interrupt lowers its pulse and settles the SoC (R145). -/
theorem SocInvariant.finishedInterrupt {s : State} (h : SocInvariant s) : SocInvariant (finishedInterrupt s) := by
  obtain ⟨-, htip, -⟩ := id h
  rw [finishedInterrupt_eq]
  split
  · exact ⟨⟨⟨nofun, latched_latch _⟩, rfl⟩, htip, rfl⟩
  · exact h

/-- One enable bit settles the EC, whatever the state before. -/
theorem ecSettled_enableSource (x : Source) (w : Word) (s : State) : EcSettled (enableSource .ec x w s) :=
  ecSettled_recompute _

/-- An EC operation that completes keeps the EC's half. -/
theorem ecInvariant_exec {i : Instr} {s t : State} (h : EcInvariant s) (hexec : exec i s = .next t) (hi : i.inst = .ec) :
    EcInvariant t := by
  obtain ⟨hec, hres⟩ := id h
  cases exec_effect hexec <;> try cases hi
  case read | ack | xfer => exact h.congr rfl
  case ecAck w =>
    refine EcInvariant.congr ⟨?_, EcstatReserved.congr hres (by simp)⟩ (respond_ec _ _)
    exact ecSettled_ackSource (ecSettled_ackSource (ecSettled_ackSource hec .spiAvail w) .spiEvent w) .spiErr w
  case ecEn w =>
    refine EcInvariant.congr ⟨?_, EcstatReserved.congr hres (by simp)⟩ (respond_ec _ _)
    exact ecSettled_enableSource .spiErr w _
  case ecRst => exact ⟨⟨⟨nofun, nofun, nofun⟩, rfl⟩, show 0 &&& ~~~ecstatMask = 0 from by decide⟩
  case ecSet k b x hx =>
    refine EcInvariant.congr ⟨?_, EcstatReserved.congr hres (by simp)⟩ (respond_ec _ _)
    exact ecSettled_driveStatus (sourceInst_of_ecSource hx) b s
  case ecstat k b hk => exact ⟨hec, ecstatReserved_withBit hres hk b⟩

/-- One enable bit settles the SoC, whatever the state before. -/
theorem socSettled_enableSource (x : Source) (w : Word) (s : State) : SocSettled (enableSource .soc x w s) :=
  socSettled_recompute _

/-- A SoC operation that completes keeps the SoC's half. -/
theorem socInvariant_exec {i : Instr} {s t : State} (h : SocInvariant s) (hexec : exec i s = .next t) (hi : i.inst = .soc) :
    SocInvariant t := by
  obtain ⟨hsoc, hidle⟩ := id h
  cases exec_effect hexec <;> try cases hi
  case read | ack => exact h.congr rfl
  case socAck w =>
    refine SocInvariant.congr ⟨?_, EngineIdle.congr hidle (by simp) (by simp only [ackSource_status])⟩ (respond_soc _ _)
    exact socSettled_ackSource (socSettled_ackSource hsoc .spiInt w) .spiHold w
  case socEn w =>
    refine SocInvariant.congr ⟨?_, EngineIdle.congr hidle (by simp) (by simp only [enableSource_status])⟩ (respond_soc _ _)
    exact socSettled_enableSource .spiHold w _
  case socCtl | holdE | att | det | txAbort => exact ⟨hsoc, hidle⟩
  case socRst => exact ⟨⟨⟨nofun, nofun⟩, rfl⟩, rfl, rfl⟩
  case holdC l _ => exact (SocInvariant.driveHold (s := withHold l s) ⟨hsoc, hidle⟩ l).congr rfl
  case socSet b _ => exact (SocInvariant.driveHold h b).congr rfl
  case tx =>
    refine SocInvariant.congr (SocInvariant.finishedInterrupt ?_) (respond_soc _ _)
    exact ⟨hsoc, rfl, hidle.2⟩

/-- Every operation that completes keeps the invariant: its own instance's half, and the other instance as it was. -/
theorem invariant_exec {i : Instr} {s t : State} (h : Invariant s) (hexec : exec i s = .next t) : Invariant t := by
  obtain ⟨hec, hsoc⟩ := (invariant_iff s).mp h
  cases hi : i.inst
  case ec => exact h.of_ec (exec_soc_of_ec hexec hi) (ecInvariant_exec hec hexec hi)
  case soc => exact h.of_soc (exec_ec_of_soc hexec hi) (socInvariant_exec hsoc hexec hi)

/-- Settles O50: an operation keeps each instance's half, and taking the request moves neither instance. -/
theorem stepKeepsInvariant : Obligations.StepKeepsInvariant := by
  intro s t hinv hstep
  unfold step at hstep
  split at hstep
  case h_1 =>
    cases hstep
    exact hinv
  case h_2 => cases hstep
  case h_3 => exact invariant_exec (hinv.congr (takeRequest_ec s) (takeRequest_soc s)) hstep

end Sys2Proof.Machine

namespace Sys2Proof.Machine

/-! The step and the addresses (20_memory.md R50-R54, 30_encoding.md R70). -/

/-- Two requests that read as the same record step alike. -/
theorem step_congr_resolve {s : State} {q q' : Request} {rest : List Request} (hq : s.requests = q :: rest)
    (h : q.resolve s.params = q'.resolve s.params) : step s = step { s with requests := q' :: rest } := by
  rw [step_request hq, h]
  exact (step_request (s := { s with requests := q' :: rest }) rfl).symm

/-- A request that reads as no record is refused with its reason. -/
theorem step_of_resolve_error {s : State} {q : Request} {rest : List Request} {e : Reject} (hq : s.requests = q :: rest)
    (h : q.resolve s.params = .error e) : step s = .refused (refusalOf e) := by
  rw [step_request hq, h]

theorem resolveAccess_outside {off : Nat} (h : 0x1000 ≤ off) (p : Inst) (d : Dir) (size : Nat) (w : Word) :
    resolveAccess p d off size w = .error .window := if_pos h

theorem resolveAccess_width {off size : Nat} (h : off < 0x1000) (hs : size ≠ 4) (p : Inst) (d : Dir) (w : Word) :
    resolveAccess p d off size w = .error .width := by
  rw [resolveAccess, if_neg (Nat.not_le.mpr h), if_neg hs]

theorem resolveAccess_inside {off : Nat} (h : off < 0x1000) (p : Inst) (d : Dir) (w : Word) :
    resolveAccess p d off 4 w = .ok ⟨p, accessSelector d (BitVec.ofNat 12 off), w⟩ := by
  rw [resolveAccess, if_neg (Nat.not_le.mpr h), if_pos rfl]

theorem inWindow_iff (base a : Nat) : inWindow base a = true ↔ base ≤ a ∧ a < base + 0x1000 := by
  simp [inWindow]

/-- An address of the EC's window reads as the access at its offset (R50). -/
theorem resolve_mem_ec (p : Params) (d : Dir) {off : Nat} (h : off < 0x1000) (size : Nat) (w : Word) :
    (Request.mem d (p.baseEc + off) size w).resolve p = resolveAccess .ec d off size w := by
  have hin : inWindow p.baseEc (p.baseEc + off) = true := (inWindow_iff _ _).mpr (by omega)
  rw [Request.resolve, if_pos hin, Nat.add_sub_cancel_left]

/-- An address of the SoC's window reads as the access at its offset, where the EC's window does not hold it too (R50, R60). -/
theorem resolve_mem_soc {p : Params} (hp : disjointWindows p = true) (d : Dir) {off : Nat} (h : off < 0x1000) (size : Nat)
    (w : Word) : (Request.mem d (p.baseSoc + off) size w).resolve p = resolveAccess .soc d off size w := by
  have hapart : p.baseEc + 0x1000 ≤ p.baseSoc ∨ p.baseSoc + 0x1000 ≤ p.baseEc := by simpa [disjointWindows] using hp
  have hout : ¬ inWindow p.baseEc (p.baseSoc + off) = true := by
    rw [inWindow_iff]
    omega
  have hin : inWindow p.baseSoc (p.baseSoc + off) = true := (inWindow_iff _ _).mpr (by omega)
  rw [Request.resolve, if_neg hout, if_pos hin, Nat.add_sub_cancel_left]

/-- An address of neither window does not reach the block (R52, log 11). -/
theorem resolve_mem_outside {p : Params} {addr : Nat} (hec : ¬ inWindow p.baseEc addr = true)
    (hsoc : ¬ inWindow p.baseSoc addr = true) (d : Dir) (size : Nat) (w : Word) :
    (Request.mem d addr size w).resolve p = .error .window := by
  rw [Request.resolve, if_neg hec, if_neg hsoc]

/-- Settles O7: the step's equation with the record's decoding put in. -/
theorem stepRunsDecodedOperation : Obligations.StepRunsDecodedOperation := by
  intro s
  have herror : ∀ r rest e, s.requests = .op r :: rest → decode s.params.holdStatusMode r = .error e →
      step s = .refused (refusalOf e) := by
    intro r rest e hq hd
    simp only [step_request hq, Request.resolve, hd]
  refine ⟨fun r rest i hq hd => ?ok, herror, fun r rest hq hd => herror r rest _ hq hd,
    fun r rest hq hd => herror r rest _ hq hd, fun hq => ?idle⟩
  case ok => simp only [step_request hq, Request.resolve, hd]
  case idle => simp only [step, fetch, hq]

/-- Settles O8, by the three cases of the access. -/
theorem busAccessSteps : Obligations.BusAccessSteps := by
  intro s p d off size w rest hq
  refine ⟨fun hoff hsize => ?inside, fun hoff => ?outside, fun hoff hsize => ?width⟩
  case inside =>
    subst hsize
    refine step_congr_resolve hq ((resolveAccess_inside hoff p d w).trans ?_)
    cases d <;> rfl
  case outside => exact step_of_resolve_error hq (resolveAccess_outside hoff p d size w)
  case width => exact step_of_resolve_error hq (resolveAccess_width hoff hsize p d w)

/-- Settles O9: a system address reads as the access at its offset, and requests that read alike step alike. -/
theorem systemAddressReachesWindow : Obligations.SystemAddressReachesWindow := by
  intro s d off size addr w rest hdisjoint
  refine ⟨fun hoff => ?inside, fun hec hsoc => ?outside⟩
  case inside =>
    have hecRead := resolve_mem_ec s.params d hoff size w
    have hsocRead := resolve_mem_soc hdisjoint d hoff size w
    exact ⟨hecRead, hsocRead, fun hq => step_congr_resolve hq hecRead, fun hq => step_congr_resolve hq hsocRead⟩
  case outside =>
    have hread := resolve_mem_outside (p := s.params) (addr := addr) (by rw [inWindow_iff]; omega)
      (by rw [inWindow_iff]; omega) d size w
    exact ⟨hread, fun hq => step_of_resolve_error hq hread⟩

/-- Settles O13: the master goes on from `afterFault`. -/
theorem faultLeavesMachineUnchanged : Obligations.FaultLeavesMachineUnchanged := by
  intro s f h
  rw [masterStep, h]
  rfl

end Sys2Proof.Machine

namespace Sys2Proof.Machine

/-! Environment inputs (43_ec_peripheral.md R172-R174, 44_soc_peripheral.md R207-R211). -/

/-- Driving a status of a latched EC: the source is driven and the line follows (R172). -/
theorem driveStatus_ec {s : State} (h : EcLatched s) {x : Source} (hx : sourceInst x = .ec) (b : Bool) :
    driveStatus x b s = settleEc (withSource x (driven b (sourceOf s x)) s) := by
  rw [driveStatus, hx, setStatus_eq, recompute_ec_withSource h hx, driven_latch]

/-- Driving SPI_HOLD's status in a latched SoC: the source is driven and the line follows (R208). -/
theorem driveStatus_spiHold {s : State} (h : SocLatched s) (b : Bool) :
    driveStatus .spiHold b s = settleSoc (withSocSources s.soc.spiInt (driven b s.soc.spiHold) s) := by
  have hboth := recompute_soc_withSources s.soc.spiInt { s.soc.spiHold with status := b } s
  rw [latch_of_latched h.1, driven_latch] at hboth
  rw [driveStatus, setStatus_eq]
  exact hboth

/-- An EC status driver with an index that names a source (R172). -/
theorem exec_ecEnvSetStatus {k : BitVec 2} {x : Source} (h : ecSource k = some x) (b : Bool) (s : State) :
    exec (.ecEnvSetStatus k b) s = .next (respond .ack (driveStatus x b s)) := by
  simp only [exec, execEcEnvSetStatus, h, complete]

/-- The EC Status field driver (R173). -/
theorem exec_ecEnvEcstatSet (k : BitVec 5) (b : Bool) (s : State) : exec (.ecEnvEcstatSet k b) s =
    if isEcstatPosition k then .next (respond .ack { s with ec := { s.ec with ecstat := withBit s.ec.ecstat k.toNat b } })
    else .refused .operand := by
  simp only [exec, execEcEnvEcstatSet, cellWrite, bit_getLsbD_zero, complete]

/-- Settles O28: each index names its source, and a latched EC's source is driven in place. -/
theorem ecStatusDriven : Obligations.EcStatusDriven := by
  intro b s
  refine ⟨fun hinv => ⟨?avail, ?event, ?err⟩, rfl⟩
  case avail =>
    rw [exec_ecEnvSetStatus (x := .spiAvail) rfl, driveStatus_ec hinv.ecLatched rfl]
    rfl
  case event =>
    rw [exec_ecEnvSetStatus (x := .spiEvent) rfl, driveStatus_ec hinv.ecLatched rfl]
    rfl
  case err =>
    rw [exec_ecEnvSetStatus (x := .spiErr) rfl, driveStatus_ec hinv.ecLatched rfl]
    rfl

/-- Settles O29: the word with one bit set, and the positions of no field refused. -/
theorem ecStatusFieldDriven : Obligations.EcStatusFieldDriven := by
  intro k b s
  have hpos : isEcstatPosition k = true ↔ k ∈ ([0, 1, 2, 3, 16, 17, 30, 31] : List (BitVec 5)) := List.contains_iff_mem
  rw [exec_ecEnvEcstatSet]
  refine ⟨fun hk => ?field, fun hk => ?other⟩
  case field =>
    rw [if_pos (hpos.mpr hk)]
    exact ⟨_, rfl, fun j hj => withBit_getLsbD _ _ _ j hj⟩
  case other => rw [if_neg (mt hpos.mp hk)]

/-- Settles O30. -/
theorem ecStubAnswersSentinel : Obligations.EcStubAnswersSentinel := fun _ _ => rfl

/-- The hold input in Environment mode (R207). -/
theorem exec_socEnvHoldSet_environment {s : State} (h : s.params.holdStatusMode = .environment) (l : Bool) :
    exec (.socEnvHoldSet l) s = .next (respond .ack (withHold l s)) := by
  simp only [exec, execSocEnvHoldSet, h, complete]

/-- The hold input in Coupled mode (R209). -/
theorem exec_socEnvHoldSet_coupled {s : State} (h : s.params.holdStatusMode = .coupled) (l : Bool) :
    exec (.socEnvHoldSet l) s = .next (respond .ack (driveStatus .spiHold l (withHold l s))) := by
  simp only [exec, execSocEnvHoldSet, h, complete]

/-- SPI_HOLD's status driver in Environment mode (R208). -/
theorem exec_socEnvSetStatus_environment {s : State} (h : s.params.holdStatusMode = .environment) (b : Bool) :
    exec (.socEnvSetStatus b) s = .next (respond .ack (driveStatus .spiHold b s)) := by
  simp only [exec, execSocEnvSetStatus, h, complete]

/-- SPI_HOLD's status driver in Coupled mode (R208). -/
theorem exec_socEnvSetStatus_coupled {s : State} (h : s.params.holdStatusMode = .coupled) (b : Bool) :
    exec (.socEnvSetStatus b) s = .refused .selector := by
  simp only [exec, execSocEnvSetStatus, h]

/-- Settles O33: the hold input is no source, so the SoC it leaves is as latched as before. -/
theorem holdInputDriven : Obligations.HoldInputDriven := by
  intro level s
  refine ⟨fun hmode => exec_socEnvHoldSet_environment hmode level, fun hmode hinv => ?coupled⟩
  have hlatched : SocLatched (withHold level s) := hinv.socLatched
  rw [exec_socEnvHoldSet_coupled hmode, driveStatus_spiHold hlatched]
  rfl

/-- Settles O34. -/
theorem spiHoldStatusDriven : Obligations.SpiHoldStatusDriven := by
  intro b s
  refine ⟨fun hmode hinv => ?environment, fun hmode => exec_socEnvSetStatus_coupled hmode b⟩
  rw [exec_socEnvSetStatus_environment hmode, driveStatus_spiHold hinv.socLatched]

/-- Settles O35. -/
theorem deviceAttachedAndDetached : Obligations.DeviceAttachedAndDetached := fun _ _ => ⟨rfl, rfl⟩

/-- Settles O44. -/
theorem recomputeIdempotent : Obligations.RecomputeIdempotent := recompute_recompute

/-- Settles O49: every field is the literal's, and with all facets 0 nothing is latched, requested or reserved. -/
theorem constructionState : Obligations.ConstructionState := by
  have hinv : ∀ p : Params, Invariant (State.construct p) := fun p =>
    { ecLatched := ⟨nofun, nofun, nofun⟩
      socLatched := ⟨nofun, nofun⟩
      lines := ⟨rfl, rfl⟩
      idle := ⟨rfl, rfl⟩
      ecstat := show 0 &&& ~~~ecstatMask = 0 from by decide }
  exact ⟨fun p => ⟨rfl, hinv p⟩, hinv Config.params⟩

end Sys2Proof.Machine

namespace Sys2Proof.Machine

/-! Tx writes (42_transfer_engine.md R140-R145). -/

/-- Settles O37, from `send` blocked by hold. -/
theorem txBlockedByHold : Obligations.TxBlockedByHold := by
  intro w d s hd hauto hhold
  exact exec_socWrTx_of_send (send_held hd hauto hhold w)

/-- The finished interrupt between operations: with INTENA, SPI_INT is latched where it is enabled, and the line follows (R145). -/
theorem finishedInterrupt_of_idle {s : State} (h : SocInvariant s) : finishedInterrupt s = settleSoc { s with
    soc := { s.soc with
      spiInt := { s.soc.spiInt with pending := s.soc.spiInt.pending || (s.soc.intena && s.soc.spiInt.enable) } } } := by
  obtain ⟨⟨⟨-, hhold⟩, hline⟩, -, hstatus⟩ := h
  rw [finishedInterrupt_eq]
  split
  case isTrue hint =>
    simp only [latch_of_latched hhold, hint, hstatus, settleSoc, socRequests, requesting, Bool.true_and]
  case isFalse hint =>
    rw [Bool.eq_false_iff.mpr hint, Bool.false_and, Bool.or_false]
    exact (settleSoc_of_line hline).symm

/-- Settles O39: the exchange, then the finished interrupt of an idle engine. -/
theorem txTransferRuns : Obligations.TxTransferRuns := by
  intro w d s hinv hd ha hb
  obtain ⟨⟨hlatched, hline⟩, htip, hstatus⟩ := ((invariant_iff s).mp hinv).2
  obtain ⟨r0, r1, n, hsend, h0, h1, hn⟩ := send_answered hd ha hb w
  refine ⟨r0, r1, n, h0, h1, hn, (exec_socWrTx_of_send hsend).trans ?_⟩
  rw [finishedInterrupt_of_idle]
  · simp only [htip]
  · exact ⟨⟨hlatched, hline⟩, rfl, hstatus⟩

/-- The transfer with a re-entering device is refused at its first byte (R59, R237). -/
theorem exchange_reentrant (v : Half) (s : State) : exchange .reentrant v s = .error .reentrant := rfl

/-- Settles O40: the preconditions pass and the first exchange is refused. -/
theorem txReentryRefused : Obligations.TxReentryRefused := by
  intro w s hd hb
  have hfree : (s.soc.autohold && s.soc.holdIn) = false := by simpa using hb
  rw [exec_socWrTx, send_runs hd hfree, exchange_reentrant]

/-- Settles O41: Echo1 answers 0x34 + 1 and 0x12 + 1, low byte first. -/
theorem echoTransferOf1234 : Obligations.EchoTransferOf1234 := by
  intro s hd hauto
  obtain ⟨r0, r1, n, hsend, h0, h1, -⟩ := send_answered hd (by decide) (fun h => absurd h (by simp [hauto])) 0x1234
  obtain rfl : r0 = 0x35 := h0 _ rfl
  obtain rfl : r1 = 0x13 := h1 _ rfl
  refine ⟨_, exec_socWrTx_of_send hsend, ?rx, ?trace⟩
  case rx =>
    rw [respond_soc, finishedInterrupt_rx]
    rfl
  case trace =>
    rw [respond_soc, finishedInterrupt_xfers]
    rfl

end Sys2Proof.Machine

namespace Sys2Proof.Machine

/-! The register bank's offset decode (40_register_bank.md R101, R102). -/

theorem fields_eq_none_iff (p : Inst) (off : Offset) : fields p off = none ↔ mapped p off = false := by
  rw [← fields_isSome, Option.isSome_eq_false_iff, Option.isNone_iff_eq_none]

theorem exists_fields_of_mapped {p : Inst} {off : Offset} (h : mapped p off = true) : ∃ fs, fields p off = some fs :=
  Option.isSome_iff_exists.mp ((fields_isSome p off).trans h)

theorem busRead_unmapped {p : Inst} {off : Offset} (h : mapped p off = false) (s : State) :
    busRead p off s = .fault (.invalidAddress p .rd off) := by
  simp only [busRead, (fields_eq_none_iff p off).mpr h, raiseInvalidAddress]

theorem busWrite_unmapped {p : Inst} {off : Offset} (h : mapped p off = false) (w : Word) (s : State) :
    busWrite p off w s = .fault (.invalidAddress p .wr off) := by
  simp only [busWrite, (fields_eq_none_iff p off).mpr h, raiseInvalidAddress]

/-- A read of a register raises no fault (R103). -/
theorem mapped_of_busRead_fault {p : Inst} {off : Offset} {s : State} {f : Fault} (h : busRead p off s = .fault f) :
    mapped p off = false := by
  refine Bool.eq_false_iff.mpr fun hm => ?_
  obtain ⟨fs, hfs⟩ := exists_fields_of_mapped hm
  obtain ⟨n, hn⟩ := busRead_mapped hfs s
  cases hn.symm.trans h

/-- A write of a register raises no fault (R105). -/
theorem mapped_of_busWrite_fault {p : Inst} {off : Offset} {w : Word} {s : State} {f : Fault}
    (h : busWrite p off w s = .fault f) : mapped p off = false := by
  refine Bool.eq_false_iff.mpr fun hm => ?_
  obtain ⟨fs, hfs⟩ := exists_fields_of_mapped hm
  simp only [busWrite, hfs] at h
  split at h <;> cases h

/-- Settles O11: an offset without descriptors raises the fault, a register's fields raise none. -/
theorem bankFaultsExactlyWhenUnmapped : Obligations.BankFaultsExactlyWhenUnmapped := by
  intro p off w s
  exact ⟨⟨mapped_of_busRead_fault, fun h => busRead_unmapped h s⟩,
    ⟨mapped_of_busWrite_fault, fun h => busWrite_unmapped h w s⟩⟩

/-! Which write callbacks can refuse (40_register_bank.md R105): Tx's alone. -/

theorem runCallback_ok {cb : Callback} (h : cb ≠ .send) (w : Word) (s : State) : ∃ t, runCallback cb w s = .ok t := by
  cases cb
  case send => exact absurd rfl h
  all_goals exact ⟨_, rfl⟩

theorem fieldWrite_ok {f : Field} (h : f.callback ≠ .send) (w : Word) (s : State) : ∃ t, fieldWrite f w s = .ok t := by
  unfold fieldWrite
  cases f.mode
  case r => exact ⟨s, rfl⟩
  case w => exact runCallback_ok h w s
  case rw => exact runCallback_ok h w _
  case rw1c =>
    simp only []
    split
    · exact runCallback_ok h w _
    · exact ⟨s, rfl⟩

theorem writeFields_ok {fs : List Field} (h : ∀ f ∈ fs, f.callback ≠ .send) (w : Word) (s : State) :
    ∃ t, writeFields fs w s = .ok t := by
  induction fs generalizing s with
  | nil => exact ⟨s, rfl⟩
  | cons f fs ih =>
    rw [List.forall_mem_cons] at h
    obtain ⟨t, ht⟩ := fieldWrite_ok h.1 w s
    simp only [writeFields, ht]
    exact ih h.2 t

/-- Of all registers only the SoC's at offset 0 has the transfer engine behind it (R191). -/
theorem callback_ne_send {p : Inst} {off : Offset} {fs : List Field} (hfs : fields p off = some fs)
    (hne : ¬ (p = .soc ∧ off = 0)) : ∀ f ∈ fs, f.callback ≠ .send := by
  cases p <;> simp only [fields] at hfs
  case ec => (repeat' split at hfs) <;> cases hfs <;> decide
  case soc =>
    rw [if_neg fun h0 => hne ⟨rfl, h0⟩] at hfs
    (repeat' split at hfs) <;> cases hfs <;> decide

/-- A write of any register but Tx is acknowledged. -/
theorem busWrite_mapped {p : Inst} {off : Offset} (h : mapped p off = true) (hne : ¬ (p = .soc ∧ off = 0)) (w : Word)
    (s : State) : ∃ t, busWrite p off w s = .next (respond .ack t) := by
  obtain ⟨fs, hfs⟩ := exists_fields_of_mapped h
  obtain ⟨t, ht⟩ := writeFields_ok (callback_ne_send hfs hne) w s
  exact ⟨t, by simp only [busWrite, hfs, ht, complete]⟩

/-! Every access is the bank's at the operation's own offset (30_encoding.md R72). -/

theorem exec_of_rd {i : Instr} (hk : i.kind = .rd) (hwf : WellFormed i = true) (s : State) :
    exec i s = busRead i.inst (selOff (encode i).sel) s := by
  cases i <;> try cases hk
  case ecRdUnmapped off =>
    rw [encode, selOff_selector]
    exact (busRead_unmapped (p := .ec) (by simpa [WellFormed] using hwf) s).symm
  case socRdUnmapped off =>
    rw [encode, selOff_selector]
    exact (busRead_unmapped (p := .soc) (by simpa [WellFormed] using hwf) s).symm
  all_goals
    rw [encode, selOff_selector]
    rfl

theorem exec_of_wr {i : Instr} (hk : i.kind = .wr) (hwf : WellFormed i = true) (s : State) :
    exec i s = busWrite i.inst (selOff (encode i).sel) (encode i).operand s := by
  cases i <;> try cases hk
  case ecWrUnmapped off w =>
    rw [encode, selOff_selector]
    exact (busWrite_unmapped (p := .ec) (by simpa [WellFormed] using hwf) w s).symm
  case socWrUnmapped off w =>
    rw [encode, selOff_selector]
    exact (busWrite_unmapped (p := .soc) (by simpa [WellFormed] using hwf) w s).symm
  all_goals
    rw [encode, selOff_selector]
    rfl

/-- A reset completes. -/
theorem exec_of_rst {i : Instr} (hk : i.kind = .rst) (s : State) : exec i s = .next (respond .ack (resetInst i.inst s)) := by
  cases i <;> try cases hk
  case ecRst => rfl
  case socRst => rfl

/-- An index below 3 names a source (R172). -/
theorem exists_ecSource {k : BitVec 2} (h : k ≠ 3) : ∃ x, ecSource k = some x := by
  have hall : ∀ k : BitVec 2, k ≠ 3 → (ecSource k).isSome = true := by decide
  exact Option.isSome_iff_exists.mp (hall k h)

/-- A well-formed environment input the mode offers completes with the answer of its kind (R172-R174, R207-R211). -/
theorem exec_of_env {i : Instr} {s : State} (hk : i.kind = .env) (hwf : WellFormed i = true)
    (hoffered : i.offered s.params.holdStatusMode = true) : ∃ t, exec i s = .next t ∧ answersInKind i t.result := by
  cases i <;> try cases hk
  case ecEnvSetStatus k b =>
    obtain ⟨x, hx⟩ := exists_ecSource (k := k) (by simpa [WellFormed] using hwf)
    exact ⟨_, exec_ecEnvSetStatus hx b s, rfl⟩
  case ecEnvXfer b => exact ⟨_, rfl, _, rfl⟩
  case ecEnvEcstatSet k b => exact ⟨_, (exec_ecEnvEcstatSet k b s).trans (if_pos hwf), rfl⟩
  case socEnvHoldSet l =>
    cases hmode : s.params.holdStatusMode
    case environment => exact ⟨_, exec_socEnvHoldSet_environment hmode l, rfl⟩
    case coupled => exact ⟨_, exec_socEnvHoldSet_coupled hmode l, rfl⟩
  case socEnvSetStatus b =>
    have hmode : s.params.holdStatusMode = .environment := by simpa [Instr.offered] using hoffered
    exact ⟨_, exec_socEnvSetStatus_environment hmode b, rfl⟩
  case socEnvAttach d => exact ⟨_, rfl, rfl⟩
  case socEnvDetach => exact ⟨_, rfl, rfl⟩

/-- No environment input faults: it completes or is refused. -/
theorem exec_env_ne_fault {i : Instr} (hk : i.kind = .env) (s : State) (f : Fault) : exec i s ≠ .fault f := by
  intro h
  cases i <;> try cases hk
  case ecEnvSetStatus k b =>
    simp only [exec, execEcEnvSetStatus] at h
    split at h <;> cases h
  case ecEnvEcstatSet k b =>
    rw [exec_ecEnvEcstatSet] at h
    split at h <;> cases h
  case socEnvHoldSet l =>
    simp only [exec, execSocEnvHoldSet] at h
    split at h <;> cases h
  case socEnvSetStatus b =>
    simp only [exec, execSocEnvSetStatus] at h
    split at h <;> cases h
  case ecEnvXfer | socEnvAttach | socEnvDetach => cases h

/-- Settles O12: an access faults where the bank does, and no reset or environment input faults. -/
theorem onlyUnmappedAccessesFault : Obligations.OnlyUnmappedAccessesFault := by
  intro i s f hwf h
  cases hk : i.kind
  case rd =>
    rw [exec_of_rd hk hwf] at h
    exact ⟨.inl rfl, mapped_of_busRead_fault h⟩
  case wr =>
    rw [exec_of_wr hk hwf] at h
    exact ⟨.inr rfl, mapped_of_busWrite_fault h⟩
  case rst => cases (exec_of_rst hk s).symm.trans h
  case env => exact absurd h (exec_env_ne_fault hk s f)

/-! Completion (43_ec_peripheral.md, 44_soc_peripheral.md). -/

/-- `send` completes where it aborts, and where its device answers. -/
theorem send_completes {s : State} (h : transferRuns s = true → s.soc.device ≠ some .reentrant) (w : Word) :
    ∃ t, send w s = .ok t := by
  cases hruns : transferRuns s
  case false => exact ⟨_, send_aborts hruns w⟩
  case true =>
    obtain ⟨hdevice, hfree⟩ := Bool.and_eq_true_iff.mp hruns
    obtain ⟨d, hd⟩ := Option.isSome_iff_exists.mp hdevice
    have ha : answers d = true := bne_iff_ne.mpr fun hre => h hruns (hre ▸ hd)
    obtain ⟨r0, r1, n, hsend, -⟩ := send_answered hd ha (fun hauto => by simpa [hauto] using hfree) w
    exact ⟨_, hsend⟩

/-- The write at offset 0 of the SoC is Tx (R191). -/
theorem eq_socWrTx_of_offset {i : Instr} (hk : i.kind = .wr) (hwf : WellFormed i = true) (hi : i.inst = .soc)
    (hoff : selOff (encode i).sel = 0) : i = .socWrTx (encode i).operand := by
  have hrow := decodeWr_encode hk hwf
  rw [hi, hoff] at hrow
  exact hrow.symm

/-- Settles O14, format by format; of the writes Tx alone can be refused. -/
theorem otherOperationsComplete : Obligations.OtherOperationsComplete := by
  intro i s hwf hoffered hmapped htx
  cases hk : i.kind
  case rd =>
    obtain ⟨fs, hfs⟩ := exists_fields_of_mapped (hmapped (.inl hk))
    obtain ⟨n, hn⟩ := busRead_mapped hfs s
    refine ⟨_, (exec_of_rd hk hwf s).trans hn, ?_⟩
    cases i <;> try cases hk
    all_goals exact ⟨_, rfl⟩
  case wr =>
    have hack : ∃ t, exec i s = .next (respond .ack t) := by
      by_cases hoff : i.inst = .soc ∧ selOff (encode i).sel = 0
      · have hi := eq_socWrTx_of_offset hk hwf hoff.1 hoff.2
        obtain ⟨t, ht⟩ := send_completes (htx ⟨_, hi⟩) (encode i).operand
        exact ⟨t, (congrArg (exec · s) hi).trans (exec_socWrTx_of_send ht)⟩
      · rw [exec_of_wr hk hwf]
        exact busWrite_mapped (hmapped (.inr hk)) hoff _ s
    obtain ⟨t, ht⟩ := hack
    refine ⟨_, ht, ?_⟩
    cases i <;> try cases hk
    all_goals rfl
  case rst =>
    refine ⟨_, exec_of_rst hk s, ?_⟩
    cases i <;> try cases hk
    all_goals rfl
  case env => exact exec_of_env hk hwf hoffered

/-! Reads (40_register_bank.md R103, R104). -/

/-- A one-bit draw of the EC is bit 0 of its free value (R104). -/
theorem drawBits_ec_one (s : State) : drawBits .ec 1 s =
    (bit ((Config.draw .ec s.draws.ec).getLsbD 0), { s with draws := { s.draws with ec := s.draws.ec + 1 } }) :=
  Prod.ext (oneBit_operand _ 0) rfl

theorem bit_or_bit_or_bit_eq_bits3 : ∀ a b c : Bool,
    (bit a <<< 0) ||| ((bit b <<< 1) ||| ((bit c <<< 2) ||| 0)) = bits3 a b c := by decide

/-- Under WO_READ_MODE Zero write-only fields read 0 and draw nothing (R104). -/
theorem readFields_writeOnly_zero {s : State} (hm : s.params.woReadMode = .zero) {fs : List Field} (h : ∀ f ∈ fs, f.mode = .w)
    (p : Inst) : readFields p fs s = (0, s) := by
  induction fs with
  | nil => rfl
  | cons f fs ih =>
    rw [List.forall_mem_cons] at h
    simp only [readFields, fieldRead, h.1, hm, ih h.2, BitVec.ofNat_eq_ofNat, BitVec.zero_shiftLeft, BitVec.or_self]

/-- Under WO_READ_MODE Zero a register of write-only fields reads 0 (R103, R104). -/
theorem busRead_writeOnly_zero {s : State} (hm : s.params.woReadMode = .zero) {p : Inst} {off : Offset} {fs : List Field}
    (hfs : fields p off = some fs) (h : ∀ f ∈ fs, f.mode = .w) : busRead p off s = .next (respond (.rdata 0) s) := by
  simp only [busRead, hfs, readFields_writeOnly_zero hm h, complete]

/-- EC Control under WO_READ_MODE Draw: three one-bit draws, one after the other (R160). -/
theorem exec_ecRdControl_draw {s : State} (hm : s.params.woReadMode = .draw) : ∃ (a b c : Bool) (n : Nat),
    exec .ecRdControl s = .next { s with draws := { s.draws with ec := n }, result := .rdata (bits3 a b c) } := by
  refine ⟨(Config.draw .ec s.draws.ec).getLsbD 0, (Config.draw .ec (s.draws.ec + 1)).getLsbD 0,
    (Config.draw .ec (s.draws.ec + 2)).getLsbD 0, s.draws.ec + 3, ?_⟩
  rw [← bit_or_bit_or_bit_eq_bits3]
  simp only [exec, execEcRdControl, busRead, readFields, placeholderField, fieldRead, hm, drawBits_ec_one, complete, respond,
    show fields .ec 0x000 = some [placeholderField 0, placeholderField 1, placeholderField 2] from rfl]

/-- SoC Tx under WO_READ_MODE Draw: one 16-bit draw (R190). -/
theorem exec_socRdTx_draw {s : State} (hm : s.params.woReadMode = .draw) : ∃ (w : BitVec 16) (n : Nat),
    exec .socRdTx s = .next { s with draws := { s.draws with soc := n }, result := .rdata (w.setWidth 32) } := by
  refine ⟨(Config.draw .soc s.draws.soc).extractLsb' 0 16, s.draws.soc + 1, ?_⟩
  have hvalue : ∀ v : Word, (v <<< 0) ||| 0 = v := by simp
  rw [← hvalue (((Config.draw .soc s.draws.soc).extractLsb' 0 16).setWidth 32)]
  simp only [exec, execSocRdTx, busRead, readFields, fieldRead, hm, drawBits, readsOf, withReads, complete, respond,
    show fields .soc 0x000 = some [⟨0, 16, .w, .unbacked, .send⟩] from rfl]

/-- Settles O15: under Draw three one-bit values and one 16-bit value, under Zero none. -/
theorem writeOnlyReads : Obligations.WriteOnlyReads := by
  intro s
  cases hm : s.params.woReadMode
  case draw =>
    obtain ⟨a, b, c, m, hcontrol⟩ := exec_ecRdControl_draw hm
    obtain ⟨w, n, htx⟩ := exec_socRdTx_draw hm
    exact ⟨⟨BitVec.ofBool c ++ BitVec.ofBool b ++ BitVec.ofBool a, m, hcontrol, nofun⟩, ⟨w, n, htx, nofun⟩⟩
  case zero =>
    have hcontrol := busRead_writeOnly_zero hm (p := .ec) (off := 0x000) rfl (by decide)
    have htx := busRead_writeOnly_zero hm (p := .soc) (off := 0x000) rfl (by decide)
    exact ⟨⟨0, s.draws.ec, hcontrol, fun _ => ⟨rfl, rfl⟩⟩, ⟨0, s.draws.soc, htx, fun _ => ⟨rfl, rfl⟩⟩⟩

/-- Settles O16: the eight fields compose to the backing word under their mask. -/
theorem ecStatusRead : Obligations.EcStatusRead := by
  refine ⟨rfl, fun s => ?_⟩
  have hfields : fields .ec 0x004 = some (([0, 1, 2, 3, 16, 17, 30, 31] : List Nat).map ecstatField) := rfl
  simp only [exec, execEcRdStatus, busRead, hfields, readFields_ecStatus, complete, respond, ecstatMask]

/-- Settles O19: a mapped read is the bank's, which moves the instance's count of draws at most. -/
theorem readsChangeNoInstance : Obligations.ReadsChangeNoInstance := by
  intro i s h
  simp only [isMappedRead, Bool.and_eq_true, beq_iff_eq] at h
  obtain ⟨⟨hk, hwf⟩, hmapped⟩ := h
  obtain ⟨fs, hfs⟩ := exists_fields_of_mapped hmapped
  obtain ⟨n, hn⟩ := busRead_mapped hfs s
  rw [exec_of_rd hk hwf, hn]
  cases i.inst
  case ec => exact ⟨_, { s.draws with ec := n }, rfl, rfl, fun _ => rfl, nofun⟩
  case soc => exact ⟨_, { s.draws with soc := n }, rfl, rfl, nofun, fun _ => rfl⟩

/-! Writes (40_register_bank.md R105). -/

/-- Settles O21: EC Control's three fields have neither backing nor callback. -/
theorem ecControlWriteDoesNothing : Obligations.EcControlWriteDoesNothing := fun w s =>
  ⟨rfl, busWrite_inert (p := .ec) (off := 0x000) rfl (by decide) w s⟩

/-- An operation that, where it completes, leaves a state it does not change again, is idempotent. -/
theorem execAll_twice {i : Instr} {s : State} (h : ∀ t, exec i s = .next t → exec i t = .next t) :
    execAll [i, i] s = execAll [i] s := by
  rw [execAll_singleton]
  cases hexec : exec i s
  case next t => rw [execAll_pair hexec, h t hexec]
  all_goals simp only [execAll, hexec]

/-- An operation that is only ever acknowledged does not change what it left. -/
theorem exec_again_of_inert {i : Instr} {s t : State} (hexec : exec i s = .next t)
    (h : ∀ s, exec i s = .next (respond .ack s)) : exec i t = .next t := by
  obtain rfl := Host.Outcome.next.inj ((h s).symm.trans hexec)
  rw [h]
  rfl

@[simp] theorem acknowledged_acknowledged (c : Bool) (e : EventSource) : acknowledged c (acknowledged c e) = acknowledged c e := by
  cases c <;> rfl

@[simp] theorem masked_masked (b : Bool) (e : EventSource) : masked b (masked b e) = masked b e := by
  simp [masked]

/-- Settles O27: a read-only register's write is inert; the formulas of an acknowledgment and of a mask write are idempotent, and the
first write leaves the invariant they hold under. -/
theorem registerWritesIdempotent : Obligations.RegisterWritesIdempotent := by
  rintro i s hinv hk htx -
  refine execAll_twice fun t hexec => ?_
  have ht : Invariant t := invariant_exec hinv hexec
  cases i <;> try cases hk
  case socWrTx w => exact absurd rfl (htx w)
  case ecWrUnmapped | socWrUnmapped => cases hexec
  case ecWrControl w => exact exec_again_of_inert hexec (busWrite_inert (p := .ec) (off := 0x000) rfl (by decide) w)
  case ecWrStatus w => exact exec_again_of_inert hexec (busWrite_inert (p := .ec) (off := 0x004) rfl (by decide) w)
  case ecWrEvStatus w => exact exec_again_of_inert hexec (busWrite_inert (p := .ec) (off := 0x008) rfl (by decide) w)
  case socWrRx w => exact exec_again_of_inert hexec (busWrite_inert (p := .soc) (off := 0x004) rfl (by decide) w)
  case socWrStatus w => exact exec_again_of_inert hexec (busWrite_inert (p := .soc) (off := 0x00C) rfl (by decide) w)
  case socWrEvStatus w => exact exec_again_of_inert hexec (busWrite_inert (p := .soc) (off := 0x010) rfl (by decide) w)
  case socWrControl w =>
    cases (exec_socWrControl w s).symm.trans hexec
    exact exec_socWrControl w _
  case ecWrEvPending w =>
    cases (ecAcknowledge w s hinv).2.symm.trans hexec
    rw [(ecAcknowledge w _ ht).2]
    simp only [respond_ec, settleEc, withEcSources, acknowledged_acknowledged]
    rfl
  case ecWrEvEnable w =>
    cases (ecEnableWrite w s hinv).2.symm.trans hexec
    rw [(ecEnableWrite w _ ht).2]
    simp only [respond_ec, settleEc, withEcSources, masked_masked]
    rfl
  case socWrEvPending w =>
    cases (socAcknowledge w s hinv).2.symm.trans hexec
    rw [(socAcknowledge w _ ht).2]
    simp only [respond_soc, settleSoc, withSocSources, acknowledged_acknowledged, Bool.and_assoc, Bool.and_self]
    rfl
  case socWrEvEnable w =>
    cases (socEnableWrite w s hinv).2.symm.trans hexec
    rw [(socEnableWrite w _ ht).2]
    simp only [respond_soc, settleSoc, withSocSources, masked_masked]
    rfl

end Sys2Proof.Machine

namespace Sys2Proof.Machine

/-! What an operation leaves of the logs, the trace, the receive value and the environment's inputs (10_state.md R39-R41). -/

/-- The values no facet and no line is, each with the operations that own it. -/
structure Frame (i : Instr) (s t : State) : Prop where
  ecLog : t.ec.diag = s.ec.diag
  log : (∀ w, i ≠ .socWrTx w) → t.soc.diag = s.soc.diag
  trace : (∀ w, i ≠ .socWrTx w) → t.soc.xfers = s.soc.xfers
  rx : (∀ w, i ≠ .socWrTx w) → i ≠ .socRst → t.soc.rx = s.soc.rx
  hold : (∀ l, i ≠ .socEnvHoldSet l) → t.soc.holdIn = s.soc.holdIn
  device : (∀ d, i ≠ .socEnvAttach d) → i ≠ .socEnvDetach → t.soc.device = s.soc.device

theorem Frame.refl (i : Instr) (s : State) : Frame i s s :=
  ⟨rfl, fun _ => rfl, fun _ => rfl, fun _ _ => rfl, fun _ => rfl, fun _ _ => rfl⟩

/-- The frame looks at no facet, no line and no answer. -/
theorem Frame.congr {i : Instr} {s t u : State} (h : Frame i s u) (hbare : bare t = bare u) : Frame i s t where
  ecLog := (congrArg (·.ec.diag) hbare).trans h.ecLog
  log hi := (congrArg (·.soc.diag) hbare).trans (h.log hi)
  trace hi := (congrArg (·.soc.xfers) hbare).trans (h.trace hi)
  rx hi hr := (congrArg (·.soc.rx) hbare).trans (h.rx hi hr)
  hold hi := (congrArg (·.soc.holdIn) hbare).trans (h.hold hi)
  device ha hd := (congrArg (·.soc.device) hbare).trans (h.device ha hd)

/-- A Tx write owns the SoC's log, its trace and its receive value. -/
theorem frame_socWrTx {s t : State} (w : Word) (hec : t.ec.diag = s.ec.diag) (hhold : t.soc.holdIn = s.soc.holdIn)
    (hdevice : t.soc.device = s.soc.device) : Frame (.socWrTx w) s t :=
  ⟨hec, fun hi => absurd rfl (hi w), fun hi => absurd rfl (hi w), fun hi => absurd rfl (hi w), fun _ => hhold,
    fun _ _ => hdevice⟩

/-- HOLD_SET owns the hold input. -/
theorem frame_withHold (l : Bool) (s : State) : Frame (.socEnvHoldSet l) s (withHold l s) :=
  ⟨rfl, fun _ => rfl, fun _ => rfl, fun _ _ => rfl, fun hi => absurd rfl (hi l), fun _ _ => rfl⟩

/-- Every operation that completes keeps to its frame. -/
theorem frame_exec {i : Instr} {s t : State} (h : exec i s = .next t) : Frame i s t := by
  cases exec_effect h
  case read | ack | xfer | socCtl | ecRst | ecstat =>
    exact ⟨rfl, fun _ => rfl, fun _ => rfl, fun _ _ => rfl, fun _ => rfl, fun _ _ => rfl⟩
  case ecAck | ecEn | socAck | socEn | ecSet | socSet => exact (Frame.refl _ s).congr (by simp)
  case socRst =>
    exact ⟨rfl, fun _ => rfl, fun _ => rfl, fun _ hr => absurd rfl hr, fun _ => rfl, fun _ _ => rfl⟩
  case holdE l _ => exact (frame_withHold l s).congr rfl
  case holdC l _ => exact (frame_withHold l s).congr (by simp)
  case att d =>
    exact ⟨rfl, fun _ => rfl, fun _ => rfl, fun _ _ => rfl, fun _ => rfl, fun hi => absurd rfl (hi d)⟩
  case det => exact ⟨rfl, fun _ => rfl, fun _ => rfl, fun _ _ => rfl, fun _ => rfl, fun _ hi => absurd rfl hi⟩
  case txAbort => exact frame_socWrTx _ rfl rfl rfl
  case tx =>
    refine Frame.congr ?_ ((bare_respond _ _).trans (bare_finishedInterrupt _))
    exact frame_socWrTx _ rfl rfl rfl

/-- A transfer that runs aborts for no reason (R142, R143). -/
theorem abortLog_of_runs {s : State} (h : transferRuns s = true) (v : Half) : abortLog v s = [] := by
  obtain ⟨hdevice, hfree⟩ := Bool.and_eq_true_iff.mp h
  obtain ⟨d, hd⟩ := Option.isSome_iff_exists.mp hdevice
  rw [Bool.not_eq_true'] at hfree
  simp only [abortLog, hd, hfree, Bool.false_eq_true, if_false]

/-- A Tx write that completes: what it logs, and that only a transfer that runs exchanges and receives (R140-R144). -/
theorem exec_socWrTx_logs {w : Word} {s t : State} (h : exec (.socWrTx w) s = .next t) :
    t.soc.diag = s.soc.diag ++ truncationLog w ++ abortLog (w.extractLsb' 0 16) s ∧ s.soc.xfers <+: t.soc.xfers ∧
      (transferRuns s = true ∨ t.soc.rx = s.soc.rx ∧ t.soc.xfers = s.soc.xfers) := by
  cases exec_effect h
  case read hk => cases hk
  case ack _ hne => exact absurd rfl (hne w)
  case txAbort l _ hl =>
    subst hl
    exact ⟨(List.append_assoc _ _ _).symm, ⟨[], List.append_nil _⟩, .inr ⟨rfl, rfl⟩⟩
  case tx d r0 r1 n _ _ hruns _ =>
    rw [abortLog_of_runs hruns, List.append_nil]
    have hbare := bare_finishedInterrupt { s with
      soc := { s.soc with
        rx := r1 ++ r0, tip := false, diag := s.soc.diag ++ truncationLog w,
        xfers := s.soc.xfers ++ [(w.extractLsb' 0 8, r0), (w.extractLsb' 8 8, r1)] },
      draws := { s.draws with device := n } }
    have hdiag := congrArg (·.soc.diag) hbare
    have hxfers := congrArg (·.soc.xfers) hbare
    exact ⟨hdiag, ⟨_, hxfers.symm⟩, .inl hruns⟩

/-- Settles O42: the frame for every operation but Tx, and Tx's own log. -/
theorem diagnosticsOnlyFromTx : Obligations.DiagnosticsOnlyFromTx := by
  intro i s t h
  refine ⟨(frame_exec h).ecLog, ?tx, (frame_exec h).log⟩
  rintro w rfl
  obtain ⟨hlog, -, -⟩ := exec_socWrTx_logs h
  exact hlog

/-- Settles O53: the frame for every operation but Tx, and of the Tx writes only a transfer that runs. -/
theorem rxChangesOnlyByTransfer : Obligations.RxChangesOnlyByTransfer := by
  intro i s t h
  by_cases htx : ∃ w, i = .socWrTx w
  case pos =>
    obtain ⟨w, rfl⟩ := htx
    obtain ⟨-, -, hruns | ⟨hrx, hxfers⟩⟩ := exec_socWrTx_logs h
    · exact ⟨fun _ => .inl ⟨⟨w, rfl⟩, hruns⟩, fun _ => ⟨⟨w, rfl⟩, hruns⟩⟩
    · exact ⟨fun hne => absurd hrx hne, fun hne => absurd hxfers hne⟩
  case neg =>
    have hother := not_exists.mp htx
    refine ⟨fun hne => .inr ?_, fun hne => absurd ((frame_exec h).trace hother) hne⟩
    by_contra hrst
    exact hne ((frame_exec h).rx hother hrst)

/-- Settles O54, from the frame. -/
theorem inputsOwnedByEnvironment : Obligations.InputsOwnedByEnvironment := by
  intro i s t h
  refine ⟨fun hne => ?hold, fun hne => ?device⟩
  case hold =>
    by_contra hnot
    exact hne ((frame_exec h).hold (not_exists.mp hnot))
  case device =>
    by_contra hnot
    obtain ⟨hatt, hdet⟩ := not_or.mp hnot
    exact hne ((frame_exec h).device (not_exists.mp hatt) hdet)

/-- Settles O55: a Tx write appends, and every other operation keeps the three lists. -/
theorem logsOnlyGrow : Obligations.LogsOnlyGrow := by
  intro i s t h
  have hec : s.ec.diag <+: t.ec.diag := by rw [(frame_exec h).ecLog]
  by_cases htx : ∃ w, i = .socWrTx w
  case pos =>
    obtain ⟨w, rfl⟩ := htx
    obtain ⟨hlog, hxfers, -⟩ := exec_socWrTx_logs h
    rw [List.append_assoc] at hlog
    exact ⟨hec, ⟨_, hlog.symm⟩, hxfers⟩
  case neg =>
    have hother := not_exists.mp htx
    refine ⟨hec, ?_, ?_⟩
    · rw [(frame_exec h).log hother]
    · rw [(frame_exec h).trace hother]

end Sys2Proof.Machine

namespace Sys2Proof.Machine

/-! What an operation does to the five event sources (10_state.md R24, 41_interrupt_controller.md R120-R126). -/

/-- A write of EvPending to an instance visits its bits in order (R167, R201). -/
def ackAll (p : Inst) (w : Word) (s : State) : State :=
  match p with
  | .ec => ackSource .ec .spiErr w (ackSource .ec .spiEvent w (ackSource .ec .spiAvail w s))
  | .soc => ackSource .soc .spiHold w (ackSource .soc .spiInt w s)

/-- A write of EvEnable to an instance visits its bits in order (R169, R203). -/
def enableAll (p : Inst) (w : Word) (s : State) : State :=
  match p with
  | .ec => enableSource .ec .spiErr w (enableSource .ec .spiEvent w (enableSource .ec .spiAvail w s))
  | .soc => enableSource .soc .spiHold w (enableSource .soc .spiInt w s)

/-- Everything an operation that completes can do to the sources, indexed by the operation and its next state. -/
inductive SourcesEffect (s : State) : Instr → State → Prop
  /-- No source moves. -/
  | kept {i t} : (∀ x, sourceOf t x = sourceOf s x) → SourcesEffect s i t
  /-- An acknowledgment (R123). -/
  | acked (p w) {t} : (∀ x, sourceOf t x = sourceOf (ackAll p w s) x) → SourcesEffect s (Instr.ack p w) t
  /-- A mask write (R125). -/
  | unmasked (p w) {t} : (∀ x, sourceOf t x = sourceOf (enableAll p w s) x) → SourcesEffect s (Instr.unmask p w) t
  /-- A reset (R108). -/
  | reset (p) {t} : (∀ x, sourceOf t x = if sourceInst x = p then quietSource else sourceOf s x) →
      SourcesEffect s (resetOf p) t
  /-- A status driver; none drives SPI_INT (R172, R208). -/
  | driven (y b) {i t} : y ≠ .spiInt → i.kind = .env → (∀ x, sourceOf t x = sourceOf (driveStatus y b s) x) →
      SourcesEffect s i t
  /-- A transfer's finished interrupt (R145). -/
  | finished (w) {t} : transferRuns s = true → (∀ x, sourceOf t x = sourceOf (finishedInterrupt s) x) →
      SourcesEffect s (.socWrTx w) t

/-- A source after the pulse of a finished interrupt: SPI_INT latched where it is enabled, the SoC's other source latched (R145). -/
def pulsed (x : Source) (e : EventSource) : EventSource :=
  match x with
  | .spiInt => ⟨false, e.pending || e.enable, e.enable⟩
  | .spiHold => latch e
  | .spiAvail => e
  | .spiEvent => e
  | .spiErr => e

@[simp] theorem pulsed_enable (x : Source) (e : EventSource) : (pulsed x e).enable = e.enable := by
  cases x
  case spiHold => exact latch_enable e
  all_goals rfl

theorem pulsed_pending {e : EventSource} (h : e.pending = true) (x : Source) : (pulsed x e).pending = true := by
  cases x
  case spiInt => exact Bool.or_eq_true_iff.mpr (.inl h)
  case spiHold => exact (latch_pending e).trans (Bool.or_eq_true_iff.mpr (.inl h))
  all_goals exact h

/-- The sources after the finished interrupt: pulsed under INTENA, else as they were (R145). -/
theorem sourceOf_finishedInterrupt (s : State) (x : Source) :
    sourceOf (finishedInterrupt s) x = if s.soc.intena then pulsed x (sourceOf s x) else sourceOf s x := by
  rw [finishedInterrupt_eq]
  split
  · cases x <;> rfl
  · rfl

theorem sources_exec {i : Instr} {s t : State} (h : exec i s = .next t) : SourcesEffect s i t := by
  cases exec_effect h
  case read | ack | xfer | socCtl | ecstat | holdE | att | det | txAbort => exact .kept fun x => by cases x <;> rfl
  case ecAck w => exact .acked .ec w fun x => sourceOf_respond _ _ x
  case socAck w => exact .acked .soc w fun x => sourceOf_respond _ _ x
  case ecEn w => exact .unmasked .ec w fun x => sourceOf_respond _ _ x
  case socEn w => exact .unmasked .soc w fun x => sourceOf_respond _ _ x
  case ecRst => exact .reset .ec fun x => by cases x <;> rfl
  case socRst => exact .reset .soc fun x => by cases x <;> rfl
  case ecSet k b y hy =>
    refine .driven y b ?_ rfl fun x => sourceOf_respond _ _ x
    rintro rfl
    cases sourceInst_of_ecSource hy
  case holdC l _ => exact .driven .spiHold l (by decide) rfl fun x => by cases x <;> rfl
  case socSet b _ => exact .driven .spiHold b (by decide) rfl fun x => sourceOf_respond _ _ x
  case tx w d r0 r1 n _ _ hruns _ =>
    refine .finished w hruns fun x => ?_
    rw [sourceOf_respond, sourceOf_finishedInterrupt, sourceOf_finishedInterrupt]
    cases x <;> rfl

/-! The status facet. -/

@[simp] theorem ackAll_status (p : Inst) (w : Word) (s : State) (x : Source) :
    (sourceOf (ackAll p w s) x).status = (sourceOf s x).status := by
  cases p <;> simp only [ackAll, ackSource_status]

@[simp] theorem enableAll_status (p : Inst) (w : Word) (s : State) (x : Source) :
    (sourceOf (enableAll p w s) x).status = (sourceOf s x).status := by
  cases p <;> simp only [enableAll, enableSource_status]

/-- The finished interrupt's pulse is over when it ends (R145). -/
theorem finishedInterrupt_status {s : State} (h : s.soc.spiInt.status = false) (x : Source) :
    (sourceOf (finishedInterrupt s) x).status = (sourceOf s x).status := by
  rw [sourceOf_finishedInterrupt]
  split
  · cases x
    case spiInt => exact h.symm
    case spiHold => exact latch_status _
    all_goals rfl
  · rfl

/-- Settles O47: of the bus accesses only a transfer raises a status, and it lowers it again. -/
theorem busNeverWritesStatus : Obligations.BusNeverWritesStatus := by
  intro i s t x hinv hk h
  cases sources_exec h
  case kept ht => rw [ht]
  case acked p w ht => rw [ht, ackAll_status]
  case unmasked p w ht => rw [ht, enableAll_status]
  case reset p ht => cases p <;> rcases hk with hk | hk <;> cases hk
  case driven y b _ henv ht => rw [henv] at hk; rcases hk with hk | hk <;> cases hk
  case finished w _ ht => rw [ht, finishedInterrupt_status hinv.idle.2]

/-! The enable facet. -/

@[simp] theorem ackAll_enable (p : Inst) (w : Word) (s : State) (x : Source) :
    (sourceOf (ackAll p w s) x).enable = (sourceOf s x).enable := by
  cases p <;> simp only [ackAll, ackSource_enable]

/-- A mask write leaves the masks of the other instance. -/
theorem enableAll_enable_of_ne {p : Inst} {x : Source} (h : sourceInst x ≠ p) (w : Word) (s : State) :
    (sourceOf (enableAll p w s) x).enable = (sourceOf s x).enable := by
  have hne : ∀ y, sourceInst y = p → x ≠ y := by
    rintro y hy rfl
    exact h hy
  cases p
  case ec =>
    rw [enableAll, enableSource_enable_of_ne _ (hne .spiErr rfl), enableSource_enable_of_ne _ (hne .spiEvent rfl),
      enableSource_enable_of_ne _ (hne .spiAvail rfl)]
  case soc => rw [enableAll, enableSource_enable_of_ne _ (hne .spiHold rfl), enableSource_enable_of_ne _ (hne .spiInt rfl)]

@[simp] theorem finishedInterrupt_enable (s : State) (x : Source) :
    (sourceOf (finishedInterrupt s) x).enable = (sourceOf s x).enable := by
  rw [sourceOf_finishedInterrupt]
  split
  · exact pulsed_enable x _
  · rfl

/-- Settles O48: every other effect keeps the masks. -/
theorem enableChangesOnlyByMaskOrReset : Obligations.EnableChangesOnlyByMaskOrReset := by
  intro i s t x h hne
  cases sources_exec h
  case kept ht => exact absurd (by rw [ht]) hne
  case acked p w ht => exact absurd (by rw [ht, ackAll_enable]) hne
  case unmasked p w ht =>
    by_cases hp : sourceInst x = p
    · exact .inl ⟨w, by rw [hp]⟩
    · exact absurd (by rw [ht, enableAll_enable_of_ne hp]) hne
  case reset p ht =>
    by_cases hp : sourceInst x = p
    · exact .inr (by rw [hp])
    · exact absurd (by rw [ht, if_neg hp]) hne
  case driven y b _ _ ht => exact absurd (by rw [ht, driveStatus_enable]) hne
  case finished w _ ht => exact absurd (by rw [ht, finishedInterrupt_enable]) hne

/-! The pending facet: what keeps it set, and what keeps it clear. -/

/-- Replacing a source by one whose pending bit is set keeps every set pending bit. -/
theorem withSource_pending {x y : Source} {e : EventSource} {s : State} (hx : (sourceOf s x).pending = true)
    (he : x = y → e.pending = true) : (sourceOf (withSource y e s) x).pending = true := by
  by_cases hxy : x = y
  · subst hxy
    rw [sourceOf_withSource, he rfl]
  · rw [sourceOf_withSource_of_ne hxy, hx]

/-- One mask bit clears no source but its own, and its own only where it is 1 (R123). -/
theorem ackSource_pending {x : Source} {s : State} (hx : (sourceOf s x).pending = true) {p : Inst} {y : Source} {w : Word}
    (hkeep : x = y → w.getLsbD (sourceIndex y) = false) : (sourceOf (ackSource p y w s) x).pending = true := by
  unfold ackSource
  split
  case isTrue hset =>
    obtain ⟨hbit, -⟩ := Bool.and_eq_true_iff.mp hset
    exact recompute_pending (withSource_pending hx fun hxy => absurd ((hkeep hxy).symm.trans hbit) Bool.false_ne_true) p
  case isFalse => exact hx

/-- An acknowledgment clears only the sources of its instance whose mask bits are 1 (R123). -/
theorem ackAll_pending {x : Source} {s : State} (hx : (sourceOf s x).pending = true) {p : Inst} {w : Word}
    (hkeep : sourceInst x = p → w.getLsbD (sourceIndex x) = false) : (sourceOf (ackAll p w s) x).pending = true := by
  have hbit : ∀ y, sourceInst y = p → x = y → w.getLsbD (sourceIndex y) = false := by
    rintro y hy rfl
    exact hkeep hy
  cases p
  case ec =>
    exact ackSource_pending (ackSource_pending (ackSource_pending hx (hbit .spiAvail rfl)) (hbit .spiEvent rfl))
      (hbit .spiErr rfl)
  case soc => exact ackSource_pending (ackSource_pending hx (hbit .spiInt rfl)) (hbit .spiHold rfl)

/-- One enable bit clears nothing (R125). -/
theorem enableSource_pending {x : Source} {s : State} (hx : (sourceOf s x).pending = true) (p : Inst) (y : Source) (w : Word) :
    (sourceOf (enableSource p y w s) x).pending = true :=
  recompute_pending (withSource_pending hx fun hxy => hxy ▸ hx) p

/-- A mask write clears nothing (R125). -/
theorem enableAll_pending {x : Source} {s : State} (hx : (sourceOf s x).pending = true) (p : Inst) (w : Word) :
    (sourceOf (enableAll p w s) x).pending = true := by
  cases p
  case ec => exact enableSource_pending (enableSource_pending (enableSource_pending hx _ _ _) _ _ _) _ _ _
  case soc => exact enableSource_pending (enableSource_pending hx _ _ _) _ _ _

/-- A status driver clears nothing (R120, R122). -/
theorem driveStatus_pending {x : Source} {s : State} (hx : (sourceOf s x).pending = true) (y : Source) (b : Bool) :
    (sourceOf (driveStatus y b s) x).pending = true := by
  rw [driveStatus, setStatus_eq]
  exact recompute_pending (withSource_pending hx fun hxy => hxy ▸ hx) _

/-- The finished interrupt clears nothing (R145). -/
theorem finishedInterrupt_pending {x : Source} {s : State} (hx : (sourceOf s x).pending = true) :
    (sourceOf (finishedInterrupt s) x).pending = true := by
  rw [sourceOf_finishedInterrupt]
  split
  · exact pulsed_pending hx x
  · exact hx

/-- Settles O45: every other effect keeps a set pending bit. -/
theorem pendingFallsOnlyByAcknowledge : Obligations.PendingFallsOnlyByAcknowledge := by
  intro i s t x h hset hclear
  have hnot : ∀ {u : State}, sourceOf t x = sourceOf u x → (sourceOf u x).pending ≠ true := by
    intro u hu
    rw [← hu, hclear]
    exact Bool.false_ne_true
  cases sources_exec h
  case kept ht => exact absurd hset (hnot (ht x))
  case acked p w ht =>
    left
    by_contra hack
    refine hnot (ht x) (ackAll_pending hset fun hp => ?_)
    subst hp
    exact Bool.eq_false_iff.mpr fun hbit => hack ⟨w, rfl, hbit⟩
  case unmasked p w ht => exact absurd (enableAll_pending hset p w) (hnot (ht x))
  case reset p ht =>
    by_cases hp : sourceInst x = p
    · exact .inr (by rw [hp])
    · exact absurd hset (hnot ((ht x).trans (if_neg hp)))
  case driven y b _ _ ht => exact absurd (driveStatus_pending hset y b) (hnot (ht x))
  case finished w _ ht => exact absurd (finishedInterrupt_pending hset) (hnot (ht x))

/-- A source whose status is 0 is latched by no recompute (R122). -/
theorem recompute_pending_of_quiet {s : State} {x : Source} (h : (sourceOf s x).status = false) (p : Inst) :
    (sourceOf (recompute p s) x).pending = (sourceOf s x).pending := by
  rw [sourceOf_recompute, latch_of_status_false h, ite_self]

/-- A source whose status and pending bit are 0. -/
abbrev Quiet (s : State) (x : Source) : Prop := (sourceOf s x).status = false ∧ (sourceOf s x).pending = false

/-- Replacing a source by one as quiet, and recomputing, keeps a source quiet. -/
theorem Quiet.recompute_withSource {s : State} {x : Source} (h : Quiet s x) {y : Source} {e : EventSource}
    (he : x = y → e.status = false ∧ e.pending = false) (p : Inst) : Quiet (recompute p (withSource y e s)) x := by
  have hq : Quiet (withSource y e s) x := by
    by_cases hxy : x = y
    · subst hxy
      rw [Quiet, sourceOf_withSource]
      exact he rfl
    · rw [Quiet, sourceOf_withSource_of_ne hxy]
      exact h
  exact ⟨(recompute_status p _ x).trans hq.1, (recompute_pending_of_quiet hq.1 p).trans hq.2⟩

theorem Quiet.ackSource {s : State} {x : Source} (h : Quiet s x) (p : Inst) (y : Source) (w : Word) :
    Quiet (ackSource p y w s) x := by
  unfold Machine.ackSource
  split
  · exact h.recompute_withSource (fun hxy => ⟨hxy ▸ h.1, rfl⟩) p
  · exact h

theorem Quiet.enableSource {s : State} {x : Source} (h : Quiet s x) (p : Inst) (y : Source) (w : Word) :
    Quiet (enableSource p y w s) x :=
  h.recompute_withSource (fun hxy => hxy ▸ h) p

theorem Quiet.ackAll {s : State} {x : Source} (h : Quiet s x) (p : Inst) (w : Word) : Quiet (ackAll p w s) x := by
  cases p
  case ec => exact ((h.ackSource _ _ _).ackSource _ _ _).ackSource _ _ _
  case soc => exact (h.ackSource _ _ _).ackSource _ _ _

theorem Quiet.enableAll {s : State} {x : Source} (h : Quiet s x) (p : Inst) (w : Word) : Quiet (enableAll p w s) x := by
  cases p
  case ec => exact ((h.enableSource _ _ _).enableSource _ _ _).enableSource _ _ _
  case soc => exact (h.enableSource _ _ _).enableSource _ _ _

/-- A status driver keeps every other source quiet. -/
theorem Quiet.driveStatus {s : State} {x y : Source} (h : Quiet s x) (hxy : x ≠ y) (b : Bool) : Quiet (driveStatus y b s) x := by
  rw [Machine.driveStatus, setStatus_eq]
  exact h.recompute_withSource (fun he => absurd he hxy) _

/-- Settles O46: SPI_INT's status is 0 between operations, so it is quiet, and every effect but the finished interrupt keeps it so. -/
theorem spiIntRisesOnlyByTransfer : Obligations.SpiIntRisesOnlyByTransfer := by
  intro i s t hinv h hclear hset
  have hquiet : Quiet s .spiInt := ⟨hinv.idle.2, hclear⟩
  have hnot : ∀ {u : State}, sourceOf t .spiInt = sourceOf u .spiInt → ¬ Quiet u .spiInt := by
    rintro u hu ⟨-, hu0⟩
    rw [← hu] at hu0
    exact Bool.false_ne_true (hu0.symm.trans hset)
  cases sources_exec h
  case kept ht => exact absurd hquiet (hnot (ht _))
  case acked p w ht => exact absurd (hquiet.ackAll p w) (hnot (ht _))
  case unmasked p w ht => exact absurd (hquiet.enableAll p w) (hnot (ht _))
  case reset p ht =>
    have hint := ht .spiInt
    cases p
    case ec => exact absurd hquiet (hnot hint)
    case soc =>
      rw [sourceOf_spiInt] at hint
      rw [hint] at hset
      cases hset
  case driven y b hy _ ht => exact absurd (hquiet.driveStatus hy.symm b) (hnot (ht _))
  case finished w hruns ht =>
    have hint := (ht .spiInt).trans (sourceOf_finishedInterrupt s .spiInt)
    rw [sourceOf_spiInt] at hint
    rw [hint] at hset
    split at hset
    case isTrue hintena =>
      have hlatch : (s.soc.spiInt.pending || s.soc.spiInt.enable) = true := hset
      rw [hclear, Bool.false_or] at hlatch
      exact ⟨⟨w, rfl⟩, hruns, hintena, hlatch⟩
    case isFalse => exact absurd (hclear.symm.trans hset) Bool.false_ne_true

end Sys2Proof.Machine

namespace Sys2Proof.Machine

/-! Operations of different instances (20_memory.md R62). -/

/-- After an operation the other instance, and its draws, are as they were. -/
theorem graft_other {i : Instr} {s a : State} (h : exec i s = .next a) {q : Inst} (hq : i.inst ≠ q) : graft q s a = a := by
  have ha := exec_eq_graft h
  cases hp : i.inst <;> cases q <;> rw [hp] at ha hq
  case ec.ec | soc.soc => exact absurd rfl hq
  all_goals
    rw [ha]
    rfl

/-- After an operation of the other instance an operation does what it does without it. -/
theorem exec_after_other {i j : Instr} {s a : State} (h : exec i s = .next a) (hij : i.inst ≠ j.inst) :
    exec j a = onNext (fun u => { graft j.inst u a with result := u.result }) (exec j s) := by
  have hlocal := exec_graft j (exec_params h).symm
  rwa [graft_other h hij] at hlocal

/-- Two operations of different instances leave the same machine in either order, but for the answer. -/
theorem graft_comm {i j : Instr} {s a b : State} (ha : exec i s = .next a) (hb : exec j s = .next b)
    (hij : i.inst ≠ j.inst) (r : Response) : { graft i.inst a b with result := r } = { graft j.inst b a with result := r } := by
  have ha := exec_eq_graft ha
  have hb := exec_eq_graft hb
  cases hp : i.inst <;> cases hq : j.inst <;> rw [hp] at ha hij <;> rw [hq] at hb hij
  case ec.ec | soc.soc => exact absurd rfl hij
  all_goals
    rw [ha, hb]
    rfl

/-- Settles O52: each operation is local to its instance, so it runs after the other as it does without it. -/
theorem instancesCommute : Obligations.InstancesCommute := by
  intro i j s a hij hi
  have hj := exec_after_other hi hij
  refine ⟨fun t ht => ?next, fun f => ?fault, fun r => ?refused⟩
  case next =>
    cases hb : exec j s with
    | next b =>
      rw [hj, hb] at ht
      obtain rfl := Host.Outcome.next.inj ht
      have hu := exec_after_other hb hij.symm
      rw [hi] at hu
      exact ⟨b, _, rfl, hu, rfl, graft_comm hi hb hij a.result⟩
    | fault f =>
      rw [hj, hb] at ht
      cases ht
    | refused r =>
      rw [hj, hb] at ht
      cases ht
  case fault =>
    rw [hj]
    cases exec j s <;> simp [onNext]
  case refused =>
    rw [hj]
    cases exec j s <;> simp [onNext]

end Sys2Proof.Machine

namespace Sys2Proof.Machine

/-! HOLD_STATUS_MODE is read by HOLD_SET and SET_STATUS alone (44_soc_peripheral.md R209): every other operation does the same in
either mode. -/

section
variable (m : HoldStatusMode)

theorem devXfer_withMode (d : Device) (b : Byte) (s : State) :
    devXfer d b (withMode m s) = (devXfer d b s).map (Prod.map id (withMode m)) := by
  cases d <;> rfl

theorem exchange_withMode (d : Device) (v : Half) (s : State) :
    exchange d v (withMode m s) = (exchange d v s).map (withMode m) := by
  have htip : cellWrite .tip 1 (withMode m s) = withMode m (cellWrite .tip 1 s) := rfl
  unfold exchange
  rw [htip, devXfer_withMode]
  cases devXfer d (lowByte v) (cellWrite .tip 1 s) with
  | error e => rfl
  | ok first =>
    obtain ⟨r0, u⟩ := first
    simp only [Except.map, Prod.map, id, devXfer_withMode]
    cases devXfer d (highByte v) u <;> rfl

theorem finishedInterrupt_withMode (s : State) : finishedInterrupt (withMode m s) = withMode m (finishedInterrupt s) := by
  unfold finishedInterrupt
  by_cases h : s.soc.intena = true
  · rw [if_pos h, if_pos (show (withMode m s).soc.intena = true from h)]
    rfl
  · rw [if_neg h, if_neg (show ¬ (withMode m s).soc.intena = true from h)]

theorem logTruncation_withMode (w : Word) (s : State) :
    logTruncation w (withMode m s) = withMode m (logTruncation w s) := by
  rw [logTruncation_eq, logTruncation_eq]
  rfl

theorem send_withMode (w : Word) (s : State) : send w (withMode m s) = (send w s).map (withMode m) := by
  unfold send
  rw [logTruncation_withMode]
  generalize logTruncation w s = u
  have hsoc : (withMode m u).soc = u.soc := rfl
  simp only [hsoc]
  cases u.soc.device with
  | none => rfl
  | some d =>
    simp only []
    split
    · rfl
    · rw [exchange_withMode]
      cases exchange d (sentValue w) u with
      | error e => rfl
      | ok t => exact congrArg Except.ok (finishedInterrupt_withMode m t)

theorem cellRead_withMode (c : Cell) (s : State) : cellRead (withMode m s) c = cellRead s c := by
  cases c
  case facet x f => cases x <;> rfl
  all_goals rfl

theorem cellWrite_withMode (c : Cell) (v : Word) (s : State) : cellWrite c v (withMode m s) = withMode m (cellWrite c v s) := by
  cases c
  case facet x f => cases x <;> rfl
  all_goals rfl

theorem runCallback_withMode (cb : Callback) (w : Word) (s : State) :
    runCallback cb w (withMode m s) = (runCallback cb w s).map (withMode m) := by
  cases cb
  case none => rfl
  case recompute p => cases p <;> rfl
  case send => exact send_withMode m w s

theorem fieldWrite_withMode (f : Field) (w : Word) (s : State) :
    fieldWrite f w (withMode m s) = (fieldWrite f w s).map (withMode m) := by
  unfold fieldWrite
  rw [cellRead_withMode, cellWrite_withMode, cellWrite_withMode]
  cases f.mode
  case r => rfl
  case w => exact runCallback_withMode m _ _ _
  case rw => exact runCallback_withMode m _ _ _
  case rw1c =>
    simp only []
    split
    · exact runCallback_withMode m _ _ _
    · rfl

theorem writeFields_withMode (fs : List Field) (w : Word) (s : State) :
    writeFields fs w (withMode m s) = (writeFields fs w s).map (withMode m) := by
  induction fs generalizing s with
  | nil => rfl
  | cons f fs ih =>
    simp only [writeFields, fieldWrite_withMode]
    cases fieldWrite f w s with
    | error e => rfl
    | ok t => exact ih t

theorem busWrite_withMode (p : Inst) (off : Offset) (w : Word) (s : State) :
    busWrite p off w (withMode m s) = onNext (withMode m) (busWrite p off w s) := by
  unfold busWrite
  cases fields p off with
  | none => rfl
  | some fs =>
    simp only [writeFields_withMode]
    cases writeFields fs w s <;> rfl

theorem fieldRead_withMode (p : Inst) (f : Field) (s : State) :
    fieldRead p f (withMode m s) = ((fieldRead p f s).1, withMode m (fieldRead p f s).2) := by
  have hzero : (withMode m s).params.woReadMode = s.params.woReadMode := rfl
  have hdraw : drawBits p f.width (withMode m s) = ((drawBits p f.width s).1, withMode m (drawBits p f.width s).2) := by
    cases p <;> rfl
  unfold fieldRead
  rw [cellRead_withMode, hzero, hdraw]
  cases f.mode
  case w => cases s.params.woReadMode <;> rfl
  all_goals rfl

theorem readFields_withMode (p : Inst) (fs : List Field) (s : State) :
    readFields p fs (withMode m s) = ((readFields p fs s).1, withMode m (readFields p fs s).2) := by
  induction fs generalizing s with
  | nil => rfl
  | cons f fs ih => simp only [readFields, fieldRead_withMode, ih]

theorem busRead_withMode (p : Inst) (off : Offset) (s : State) :
    busRead p off (withMode m s) = onNext (withMode m) (busRead p off s) := by
  unfold busRead
  cases fields p off with
  | none => rfl
  | some fs =>
    simp only [readFields_withMode]
    rfl

/-- Every operation but HOLD_SET and SET_STATUS does the same in either mode. -/
theorem exec_withMode {i : Instr} (hhold : ∀ l, i ≠ .socEnvHoldSet l) (hstatus : ∀ b, i ≠ .socEnvSetStatus b) (s : State) :
    exec i (withMode m s) = onNext (withMode m) (exec i s) := by
  cases i
  case socEnvHoldSet l => exact absurd rfl (hhold l)
  case socEnvSetStatus b => exact absurd rfl (hstatus b)
  case ecRdControl | ecRdStatus | ecRdEvStatus | ecRdEvPending | ecRdEvEnable | socRdTx | socRdRx | socRdControl | socRdStatus |
      socRdEvStatus | socRdEvPending | socRdEvEnable =>
    rw [exec_of_rd rfl rfl, exec_of_rd rfl rfl, busRead_withMode]
  case ecWrControl w | ecWrStatus w | ecWrEvStatus w | ecWrEvPending w | ecWrEvEnable w | socWrTx w | socWrRx w |
      socWrControl w | socWrStatus w | socWrEvStatus w | socWrEvPending w | socWrEvEnable w =>
    rw [exec_of_wr rfl rfl, exec_of_wr rfl rfl, busWrite_withMode]
  case ecEnvSetStatus k b =>
    simp only [exec, execEcEnvSetStatus]
    cases ecSource k with
    | none => rfl
    | some x => cases x <;> rfl
  case ecEnvEcstatSet k b =>
    rw [exec_ecEnvEcstatSet, exec_ecEnvEcstatSet]
    split <;> rfl
  case ecRdUnmapped | ecWrUnmapped | socRdUnmapped | socWrUnmapped | ecRst | socRst | ecEnvXfer | socEnvAttach | socEnvDetach =>
    rfl

end

/-- In Environment mode HOLD_SET with the separate status change does what Coupled mode does in one (R209). -/
theorem execAll_hold_environment (l : Bool) (s : State) :
    execAll (inEnvironment (.socEnvHoldSet l)) (withMode .environment s) =
      .next (respond .ack (driveStatus .spiHold l (respond .ack (withHold l (withMode .environment s))))) := by
  have hhold := exec_socEnvHoldSet_environment (s := withMode .environment s) rfl l
  exact (execAll_pair hhold _).trans (exec_socEnvSetStatus_environment rfl l)

/-- Settles O56: HOLD_SET by its two steps, SET_STATUS refused in Coupled mode, and every other operation as it is. -/
theorem environmentAdmitsCoupled : Obligations.EnvironmentAdmitsCoupled := by
  intro i s t hmode h
  by_cases hhold : ∃ l, i = .socEnvHoldSet l
  · obtain ⟨l, rfl⟩ := hhold
    cases (exec_socEnvHoldSet_coupled hmode l).symm.trans h
    exact ⟨_, execAll_hold_environment l s, rfl⟩
  by_cases hstatus : ∃ b, i = .socEnvSetStatus b
  · obtain ⟨b, rfl⟩ := hstatus
    cases (exec_socEnvSetStatus_coupled hmode b).symm.trans h
  · have hself : inEnvironment i = [i] := by
      cases i
      case socEnvHoldSet l => exact absurd ⟨l, rfl⟩ hhold
      all_goals rfl
    refine ⟨withMode .environment t, ?_, rfl⟩
    rw [hself, execAll_singleton, exec_withMode .environment (not_exists.mp hhold) (not_exists.mp hstatus), h]
    rfl

end Sys2Proof.Machine
